-- ==== Sys2Proof/Word.lean ====
section
/-! DEFINITION. The word types of the LHM-SRD (00_scope.md R10, R11; 10_state.md R23). -/

namespace Sys2Proof

/-- A 3-bit code or index: `phase`, `pos`, `bitidx` and the advance key (R23, R70, R78). -/
abbrev Code := BitVec 3

/-- An 8-bit value: the pattern and the receiver's two registers (R7 `W = 8`, R23, R56). -/
abbrev Byte := BitVec 8

/-- The direction, written `Asc` and `Desc` (R15). Its bit is `Dir.bit` (R76). -/
inductive Dir where
  | asc
  | desc
deriving DecidableEq, Repr

end Sys2Proof
end

