-- ==== Sys2Proof/Config.lean ====
section
/-! DEFINITION. What is fixed when the block is built (00_scope.md R7), and the values the spec leaves free. -/

namespace Sys2Proof

/-- The build parameters of R7. A machine carries its own in State (log entry 1, DESIGN CHOICE), so that every
statement about a state is a statement for every build. -/
structure Params where
  /-- `N`, the light-unit count. -/
  n : Nat
  /-- `HALF_CYC`, the half-period in cycles; OPEN in the spec (92 D10). -/
  halfCyc : Nat
  /-- `TICK_CYC`, the tick period in cycles; OPEN in the spec (92 D11). -/
  tickCyc : Nat
  /-- `CYC_PER_US`; "no rule of the model reads it" (R7, 92 D12; log entry 14). -/
  cycPerUs : Nat
deriving DecidableEq, Repr

/-- The build `State.reset` is given: `N = 6` is the reference configuration of R7, the other three values are the
model's (log entry 2, DESIGN CHOICE, unsafe): those of the spec's first scenario, P1 of 95_test_vectors.md. -/
def Config.reference : Params := ⟨6, 1, 25, 1⟩

/-- Free value: the receiver's shift chain `S` in cycle 0, "any 8-bit values, a free input of the model" (R61, 93 V1;
log entry 5). It has no body on purpose: no proof can see which value it is. -/
opaque Config.receiverChain0 : Byte

/-- Free value: the receiver's output stage `Q` in cycle 0 (R61, 93 V1; log entry 5). -/
opaque Config.receiverOut0 : Byte

end Sys2Proof
end

