-- ==== Sys2Proof/Syntax.lean ====
section
/-! DEFINITION. The operations of the controller: one constructor per row of spec/opcode_table.json. -/

namespace Sys2Proof

/-- The two encoded selectors (30_encoding.md R70, R78). -/
inductive Format where
  /-- The 3-bit register `phase`, which selects the operation of a cycle. -/
  | phase
  /-- The 3-bit advance key, which selects the case inside the `ADV` operation. -/
  | advKey
deriving DecidableEq, Repr

/-- The twelve operations. No row has an operand field ("The block has no immediates", R80). -/
inductive Instr where
  /-- `ADV` (R100). -/
  | adv
  /-- `SH_LO` (R120). -/
  | shLo
  /-- `SH_HI` (R122). -/
  | shHi
  /-- `LT_HI` (R124). -/
  | ltHi
  /-- `LT_LO` (R126). -/
  | ltLo
  /-- `WAIT` (R147). -/
  | wait
  /-- `ADV_INT_UP` (R105). -/
  | advIntUp
  /-- `ADV_INT_DN` (R106). -/
  | advIntDn
  /-- `ADV_UB_REV` (R103). -/
  | advUbRev
  /-- `ADV_UB_BACK` (R104). -/
  | advUbBack
  /-- `ADV_LB_FWD` (R102). -/
  | advLbFwd
  /-- `ADV_LB_REV` (R101). -/
  | advLbRev
deriving DecidableEq, Repr

end Sys2Proof
end

