-- ==== Sys2Proof/WellFormed.lean ====
section
/-! DEFINITION. The checks: which selector an operation belongs to, and which builds are legal. -/

namespace Sys2Proof

/-- The selector a row is encoded in: the "format" column of spec/opcode_table.json (R70, R79). -/
def Instr.format : Instr → Format
  | .adv | .shLo | .shHi | .ltHi | .ltLo | .wait => .phase
  | .advIntUp | .advIntDn | .advUbRev | .advUbBack | .advLbFwd | .advLbRev => .advKey

/-- An operation read from the selector `f` is well formed when it is one of that selector's. Operations have no operand
fields, so there is nothing else to check (R74, R80). -/
def Instr.wellFormed (f : Format) (i : Instr) : Bool := decide (i.format = f)

/-- A legal build (R9): `2 ≤ N ≤ 8`, `HALF_CYC ≥ 1`, `TICK_CYC ≥ 1`. -/
def Params.legal (p : Params) : Bool :=
  decide (2 ≤ p.n) && decide (p.n ≤ 8) && decide (1 ≤ p.halfCyc) && decide (1 ≤ p.tickCyc)

end Sys2Proof
end

