-- ==== Sys2Proof/Decode.lean ====
section
/-! DEFINITION. The codes of the two selectors, the decoder (30_encoding.md R70, R71, R79, R85) and the encoder. -/

namespace Sys2Proof

/-- The bit of a direction: 0 is `Asc`, 1 is `Desc` (R76). -/
def Dir.bit : Dir → Bool
  | .asc => false
  | .desc => true

/-- `ADV`, R70. -/
def Phase.adv : Code := 0b000
/-- `SH_LO`, R70. -/
def Phase.shLo : Code := 0b001
/-- `SH_HI`, R70. -/
def Phase.shHi : Code := 0b010
/-- `LT_HI`, R70. -/
def Phase.ltHi : Code := 0b011
/-- `LT_LO`, R70. -/
def Phase.ltLo : Code := 0b100
/-- `WAIT`, R70. -/
def Phase.wait : Code := 0b101

/-- `ADV_INT_UP`, R79. -/
def AdvKey.intUp : Code := 0b000
/-- `ADV_INT_DN`, R79. -/
def AdvKey.intDn : Code := 0b001
/-- `ADV_UB_REV`, R79. -/
def AdvKey.ubRev : Code := 0b010
/-- `ADV_UB_BACK`, R79. -/
def AdvKey.ubBack : Code := 0b011
/-- `ADV_LB_FWD`, R79. -/
def AdvKey.lbFwd : Code := 0b100
/-- `ADV_LB_REV`, R79. -/
def AdvKey.lbRev : Code := 0b101

/-- Why a code is no operation. -/
inductive DecodeError where
  /-- Phase code 0b110 or 0b111 (R71). -/
  | reservedPhase
  /-- Advance key 0b110 or 0b111 (R79). -/
  | reservedAdvanceKey
  /-- A word with a bit above bit 2: both selectors have exactly three bits (R70, R78). -/
  | widerThanThreeBits
deriving DecidableEq, Repr

/-- Reads `phase[2:0]` (R70, R71). -/
def decodePhase (c : Code) : Except DecodeError Instr :=
  match c.toNat with
  | 0 => .ok .adv
  | 1 => .ok .shLo
  | 2 => .ok .shHi
  | 3 => .ok .ltHi
  | 4 => .ok .ltLo
  | 5 => .ok .wait
  | _ => .error .reservedPhase

/-- Reads the advance key `lb ub d` (R79). -/
def decodeAdvKey (c : Code) : Except DecodeError Instr :=
  match c.toNat with
  | 0 => .ok .advIntUp
  | 1 => .ok .advIntDn
  | 2 => .ok .advUbRev
  | 3 => .ok .advUbBack
  | 4 => .ok .advLbFwd
  | 5 => .ok .advLbRev
  | _ => .error .reservedAdvanceKey

/-- The decoder of R85 on the code of a selector. -/
def decode : Format → Code → Except DecodeError Instr
  | .phase, c => decodePhase c
  | .advKey, c => decodeAdvKey c

/-- The decoder on any word: a word with more than the selector's three bits is rejected by name. -/
def decodeWord (f : Format) (w : Nat) : Except DecodeError Instr :=
  if w < 8 then decode f (BitVec.ofNat 3 w) else .error .widerThanThreeBits

/-- The decoder as the host asks for it. A step fetches its operation from the register `phase`, so a table word is read in
format PHASE; the advance keys have the same six words and are read by `decodeAdvKey` inside `ADV` (R85; log entry 9). -/
def decodeTableWord (nbits w : Nat) : Option Instr :=
  if 3 ≤ nbits then (decodeWord .phase w).toOption else none

/-- The code of an operation in its own selector (R70, R79). -/
def encode : Instr → Code
  | .adv => Phase.adv
  | .shLo => Phase.shLo
  | .shHi => Phase.shHi
  | .ltHi => Phase.ltHi
  | .ltLo => Phase.ltLo
  | .wait => Phase.wait
  | .advIntUp => AdvKey.intUp
  | .advIntDn => AdvKey.intDn
  | .advUbRev => AdvKey.ubRev
  | .advUbBack => AdvKey.ubBack
  | .advLbFwd => AdvKey.lbFwd
  | .advLbRev => AdvKey.lbRev

end Sys2Proof
end

