-- ==== Sys2Proof/Machine/State.lean ====
section
/-! DEFINITION. The state of the LHM-SRD: everything 10_state.md R23 and 20_memory.md R56 give it, the build, the reset input
and the model's fault state; and the state after reset (70_reset_and_hazards.md R180). -/

namespace Sys2Proof.Machine

/-- The closed set of fault reasons (60_exceptions.md R161). All are safe: each stops the machine on an encoding that
no run from reset reaches (R162). -/
inductive Fault where
  /-- `pos ≥ N` at a step; raised by the step's own checks (R36, R75). Safe. -/
  | posOutOfRange
  /-- `hcnt ≥ HALF_CYC` at a step; raised by the step's own checks (R36). Safe. -/
  | hcntOutOfRange
  /-- `phase` is 0b110 or 0b111; raised when the step decodes `phase` (R36, R71). Safe. -/
  | reservedPhase
  /-- The advance key is 0b110 or 0b111; raised by `ADV` (R79, R100). It needs `N = 1`, a build every step refuses. Safe. -/
  | reservedAdvanceKey
deriving DecidableEq, Repr

/-- Why the model has no meaning for something. -/
inductive Refusal where
  /-- An operation with no meaning yet. No arm of `exec` answers it: all twelve have theirs. Safe. -/
  | notModelled (mnemonic : String)
  /-- A build with `N < 2`, `N > 8`, `HALF_CYC < 1` or `TICK_CYC < 1`; answered by every step of it (R9, R161). Safe. -/
  | illegalParams
  /-- An advance case asked of `exec` in a state that is not the case's (its "Operands" line, R101-R106): no `ADV` selects
  it there, so no step answers this (log entry 7). Safe. -/
  | caseNotSelected
deriving DecidableEq, Repr

/-- The registers of the block: "exactly these" (R23). -/
structure Regs where
  /-- Controller state: the operation of the current cycle (R33, R70). -/
  phase : Code
  /-- Chaser position (R24). -/
  pos : Code
  /-- Chaser direction (R25). -/
  dir : Dir
  /-- Pattern being transmitted (R26). -/
  pat : Byte
  /-- Index of the pattern bit on the data line (R27). -/
  bitidx : Code
  /-- Cycles already spent in the current half-period (R28); a natural, see log entry 4. -/
  hcnt : Nat
  /-- Cycles elapsed since the start of the current tick (R29); a natural, see log entry 4. -/
  tcnt : Nat
  /-- Level of `ser_o` (R30). -/
  ser : Bool
  /-- Level of `sclk_o` (R30). -/
  sclk : Bool
  /-- Level of `lclk_o` (R30). -/
  lclk : Bool
  /-- Sticky overrun flag, level of `ovr_o` (R31). -/
  ovr : Bool
deriving DecidableEq, Repr

/-- The external shift register, the reference receiver model (20_memory.md R56, R57). -/
structure Receiver where
  /-- The shift chain, the spec's `S`. -/
  chain : Byte
  /-- The output stage, the spec's `Q`. -/
  out : Byte
deriving DecidableEq, Repr

/-- The machine in one cycle. -/
structure State where
  /-- The build (R7); no step writes it. -/
  params : Params
  /-- The block's registers (R23). -/
  regs : Regs
  /-- The receiver (R56). -/
  rx : Receiver
  /-- The levels of the input `rst` in this cycle, the next one, and so on; past the end it is 0 (R21; log entry 3). -/
  rst : List Bool
  /-- The reason a fault state keeps (R162); none in every other state (log entry 8). -/
  faulted : Option Fault
deriving DecidableEq, Repr

/-- The reset value of every register (R23, R180). -/
def Regs.reset : Regs :=
  { phase := Phase.adv, pos := 0, dir := .asc, pat := 0x00, bitidx := 0, hcnt := 0, tcnt := 0,
    ser := false, sclk := false, lclk := false, ovr := false }

/-- Cycle 0 of a build: the registers at their reset values (R180), the receiver and the coming levels of `rst` whatever the
environment makes them (R61, R175). -/
def State.boot (p : Params) (rx : Receiver) (rst : List Bool) : State :=
  { params := p, regs := Regs.reset, rx := rx, rst := rst, faulted := none }

/-- The machine right after reset: cycle 0 of the reference build, the receiver unknown, `rst = 0` from here on
(log entries 2, 3 and 5). -/
def State.reset : State :=
  State.boot Config.reference ⟨Config.receiverChain0, Config.receiverOut0⟩ []

end Sys2Proof.Machine
end

