-- ==== Sys2Proof/Machine/Operands.lean ====
section
/-! DEFINITION. What the operations read: the advance key (30_encoding.md R78), the pattern (40_sequencer.md R107-R110), the data
bit (R80, 41_driver.md R130), the pins (10_state.md R22) and the lights (20_memory.md R59). -/

namespace Sys2Proof.Machine

/-- `lb`: the source's `AtLowerBound` (R78). -/
def atLower (r : Regs) : Bool := decide (r.pos.toNat = 0)

/-- `ub`: the source's `AtUpperBound`, `pos = N - 1` (R78). -/
def atUpper (p : Params) (r : Regs) : Bool := decide (r.pos.toNat + 1 = p.n)

/-- The advance key `lb ub d`, bit 2 first (R78). -/
def advKey (p : Params) (r : Regs) : Code :=
  BitVec.ofBool (atLower r) ++ BitVec.ofBool (atUpper p r) ++ BitVec.ofBool r.dir.bit

/-- The value with only bit `k` set, `1 << k` (R11). -/
def oneBit (k : Nat) : Byte := 1#8 <<< k

/-- The adjacent index, an integer in `[-1, N]` (R80, R107). -/
def adj (p : Code) : Dir → Int
  | .asc => p.toNat + 1
  | .desc => p.toNat - 1

/-- `guard(a)`: the bit of an index inside `[0, N-1]`, nothing for one outside (R108). -/
def guardBit (n : Nat) (a : Int) : Byte :=
  if 0 ≤ a ∧ a ≤ n - 1 then oneBit a.toNat else 0x00

/-- `Pattern(p, d) = (1 << p) | guard(adj(p, d))` (R107). -/
def pattern (n : Nat) (p : Code) (d : Dir) : Byte :=
  oneBit p.toNat ||| guardBit n (adj p d)

/-- `Trail(p, d)`: the same pattern from the state after the move (R110). -/
def trail (n : Nat) (p : Code) : Dir → Byte
  | .asc => oneBit p.toNat ||| guardBit n (p.toNat - 1)
  | .desc => oneBit p.toNat ||| guardBit n (p.toNat + 1)

/-- Bit `k` of the pattern, `(pat >> k) & 1` (R80, R130). -/
def dataBit (pat : Byte) (k : Code) : Bool := pat.getLsbD k.toNat

/-- The four output pins (R21). -/
structure Pins where
  /-- Serial Data. -/
  serO : Bool
  /-- Shift Clock. -/
  sclkO : Bool
  /-- Storage/Latch Clock. -/
  lclkO : Bool
  /-- Overrun status. -/
  ovrO : Bool
deriving DecidableEq, Repr

/-- "Each output pin equals an output register in every cycle" (R22). -/
def State.pins (s : State) : Pins := ⟨s.regs.ser, s.regs.sclk, s.regs.lclk, s.regs.ovr⟩

/-- Whether light unit `k` is lit: output `Q[k]` drives light `k` for `k` in `[0, N-1]`, and a 1 means lit (R59, 92 D28). -/
def State.lit (s : State) (k : Nat) : Bool := decide (k < s.params.n) && s.rx.out.getLsbD k

end Sys2Proof.Machine
end

