-- ==== Sys2Proof/Machine/Flags.lean ====
section
/-! DEFINITION. The status bits. The block's only ones are `dir` and `ovr` (10_state.md R34); it has no condition codes. -/

namespace Sys2Proof.Machine

/-- The overrun condition `w >= T` of `end_of_frame`, with equality an overrun (42_scheduler.md R146, R149). -/
def overran (p : Params) (w : Nat) : Bool := decide (p.tickCyc ≤ w)

/-- `ovr` after the end of a frame: set by an overrun, never cleared (R146, R150). -/
def ovrAfter (p : Params) (w : Nat) (ovr : Bool) : Bool := ovr || overran p w

/-- `dir` after a reversal (R101, R103). -/
def Dir.reversed : Dir → Dir
  | .asc => .desc
  | .desc => .asc

end Sys2Proof.Machine
end

