-- ==== Sys2Proof/Machine/Ops.lean ====
section
/-! DEFINITION. The operations the meanings share: a clock edge with the receiver's reaction, reset, the model fault state, the
half-period counter, the end of a shift pulse, the end of a frame, the start of a frame, and what a cycle does first. -/

namespace Sys2Proof.Machine

/-- The receiver's chain takes one bit at stage 0, the others move one stage up (20_memory.md R56). -/
def shiftIn (chain : Byte) (b : Bool) : Byte := (chain <<< 1) ||| (BitVec.ofBool b).setWidth 8

/-- A rising edge: the level is 0 in one cycle and 1 in the next (00_scope.md R14). -/
def rises (before after : Bool) : Bool := !before && after

/-- The receiver across one clock edge of the block, from the levels of the lines in the two cycles: it shifts at a rising
`sclk_o` (R56) and copies the chain it held to its outputs at a rising `lclk_o` (R57). -/
def Receiver.react (x : Receiver) (before after : Regs) : Receiver :=
  { chain := if rises before.sclk after.sclk then shiftIn x.chain after.ser else x.chain
    out := if rises before.lclk after.lclk then x.chain else x.out }

/-- One rising edge of `clk`: the registers take their next values all at once (R12), the receiver reacts to the lines, and the
environment's next level of `rst` comes up. -/
def State.commit (s : State) (r : Regs) : State :=
  { s with regs := r, rx := s.rx.react s.regs r, rst := s.rst.tail }

/-- The level of `rst` in this cycle. -/
def State.rstNow (s : State) : Bool := s.rst.headD false

/-- A clock edge with `rst = 1`: every register takes its reset value; the reset does not reach the receiver, which sees the
lines like in any cycle (R36, R180, R183); a fault state is left (R187). -/
def State.applyReset (s : State) : State := { s.commit Regs.reset with faulted := none }

/-- The fault state a raised fault moves the model to: it keeps its reason (R162). The registers, the pins and the receiver
keep what they hold (log entry 8, DESIGN CHOICE). -/
def State.enterFault (s : State) (f : Fault) : State :=
  { s with rst := s.rst.tail, faulted := some f }

/-- The checks before the operation, in their order: a fault state's own reason (R162), then `pos`, then `hcnt` (R36, R163).
The check of `hcnt` is R36's, in every phase: in `ADV` and `WAIT` a count from 1 to `HALF_CYC - 1` breaks I3 and R37's last sentence has
it fault, while R36, R161 and U4 do not; the model follows R36 (log entry 17, DESIGN CHOICE). -/
def faultCheck (s : State) : Option Fault :=
  match s.faulted with
  | some f => some f
  | none =>
    if s.params.n ≤ s.regs.pos.toNat then some .posOutOfRange
    else if s.params.halfCyc ≤ s.regs.hcnt then some .hcntOutOfRange
    else none

/-- What a cycle does (60_exceptions.md R165: "exactly one of the following happens, in this priority order"). -/
inductive CycleEvent where
  /-- The build is illegal: there is no machine (R9). -/
  | noMachine
  /-- `rst = 1`. -/
  | reset
  /-- A fault check fails. -/
  | fault (f : Fault)
  /-- The operation selected by `phase`. -/
  | run (i : Instr)
deriving DecidableEq, Repr

/-- The event of this cycle: no machine, reset, fault, or the operation `phase` selects (R9, R36, R163, R165). -/
def State.event (s : State) : CycleEvent :=
  if s.params.legal then
    if s.rstNow then .reset
    else match faultCheck s with
      | some f => .fault f
      | none =>
        match decodePhase s.regs.phase with
        | .ok i => .run i
        | .error _ => .fault .reservedPhase
  else .noMachine

/-- A cycle of a frame phase: count the half-period, and in its last cycle do `last`; `tcnt` counts in either case unless `last`
says otherwise (41_driver.md R120, R122, R124, R126). -/
def halfPeriod (p : Params) (r last : Regs) : Regs :=
  if r.hcnt + 1 < p.halfCyc then { r with hcnt := r.hcnt + 1, tcnt := r.tcnt + 1 } else last

/-- `end_of_shift_pulse` (41_driver.md R123). -/
def endOfShiftPulse (r : Regs) : Regs :=
  if 0 < r.bitidx.toNat then
    { r with hcnt := 0, sclk := false, bitidx := r.bitidx - 1, ser := dataBit r.pat (r.bitidx - 1), phase := Phase.shLo }
  else
    { r with hcnt := 0, sclk := false, lclk := true, phase := Phase.ltHi }

/-- `end_of_frame` (42_scheduler.md R146), with `w = tcnt + 1`. -/
def endOfFrame (p : Params) (r : Regs) : Regs :=
  let w := r.tcnt + 1
  if overran p w then { r with ovr := ovrAfter p w r.ovr, tcnt := 0, phase := Phase.adv }
  else { r with ovr := ovrAfter p w r.ovr, tcnt := w, phase := Phase.wait }

/-- The effects every advance has beside the case's move to (`pos'`, `dir'`): the pattern of the values before the move is
loaded and a frame starts (40_sequencer.md R100, R107). -/
def startFrame (p : Params) (r : Regs) (pos' : Code) (dir' : Dir) : Regs :=
  let pat' := pattern p.n r.pos r.dir
  { r with
    pos := pos', dir := dir', pat := pat', bitidx := 7, hcnt := 0, ser := dataBit pat' 7,
    sclk := false, lclk := false, tcnt := r.tcnt + 1, phase := Phase.shLo }

/-- The advance as the case with the key `key`: only where `pos` is in range and the state forms that key, which is what the
cases' "Operands" lines say (R78, R101-R106); elsewhere no `ADV` selects the case (log entry 7). -/
def advanceAs (key : Code) (s : State) (pos' : Code) (dir' : Dir) : Host.Outcome State Fault Refusal :=
  if s.regs.pos.toNat < s.params.n ∧ advKey s.params s.regs = key then
    .next (s.commit (startFrame s.params s.regs pos' dir'))
  else .refused .caseNotSelected

end Sys2Proof.Machine
end

