-- ==== Sys2Proof/Machine/Driver.lean ====
section
/-! DEFINITION. The shift-register driver: the four frame phases (41_driver.md R120-R127). -/

namespace Sys2Proof.Machine

/-- `SH_LO` (R120): shift-clock low half, data set-up; its end raises `sclk`. -/
def execShLo (s : State) : Host.Outcome State Fault Refusal :=
  let r := s.regs
  .next (s.commit (halfPeriod s.params r
    { r with hcnt := 0, sclk := true, phase := Phase.shHi, tcnt := r.tcnt + 1 }))

/-- `SH_HI` (R122): shift-clock high half; its end is `end_of_shift_pulse` (R123). -/
def execShHi (s : State) : Host.Outcome State Fault Refusal :=
  let r := s.regs
  .next (s.commit (halfPeriod s.params r { endOfShiftPulse r with tcnt := r.tcnt + 1 }))

/-- `LT_HI` (R124): latch-clock high half; its end lowers `lclk`. -/
def execLtHi (s : State) : Host.Outcome State Fault Refusal :=
  let r := s.regs
  .next (s.commit (halfPeriod s.params r
    { r with hcnt := 0, lclk := false, phase := Phase.ltLo, tcnt := r.tcnt + 1 }))

/-- `LT_LO` (R126): latch-clock low half; its end is `end_of_frame` (R146). -/
def execLtLo (s : State) : Host.Outcome State Fault Refusal :=
  let r := s.regs
  .next (s.commit (halfPeriod s.params r { endOfFrame s.params r with hcnt := 0 }))

end Sys2Proof.Machine
end

