-- ==== Sys2Proof/Machine/Scheduler.lean ====
section
/-! DEFINITION. The tick scheduler's own phase (42_scheduler.md R147); `end_of_frame` stands in Ops. -/

namespace Sys2Proof.Machine

/-- `WAIT` (R147): wait out the rest of the tick period. -/
def execWait (s : State) : Host.Outcome State Fault Refusal :=
  let r := s.regs
  .next (s.commit
    (if s.params.tickCyc ≤ r.tcnt + 1 then { r with tcnt := 0, phase := Phase.adv }
     else { r with tcnt := r.tcnt + 1 }))

end Sys2Proof.Machine
end

