-- ==== Sys2Proof/Machine/Sequencer.lean ====
section
/-! DEFINITION. The sequencer: the `ADV` operation and its six cases (40_sequencer.md R100-R106). -/

namespace Sys2Proof.Machine

/-- `ADV_LB_REV` (R101): at the lower bound going down; reverse, do not move. -/
def execAdvLbRev (s : State) : Host.Outcome State Fault Refusal :=
  advanceAs AdvKey.lbRev s s.regs.pos (Dir.reversed s.regs.dir)

/-- `ADV_LB_FWD` (R102): at the lower bound going up; move to 1. -/
def execAdvLbFwd (s : State) : Host.Outcome State Fault Refusal :=
  advanceAs AdvKey.lbFwd s (s.regs.pos + 1) s.regs.dir

/-- `ADV_UB_REV` (R103): at the upper bound going up; reverse, do not move. -/
def execAdvUbRev (s : State) : Host.Outcome State Fault Refusal :=
  advanceAs AdvKey.ubRev s s.regs.pos (Dir.reversed s.regs.dir)

/-- `ADV_UB_BACK` (R104): at the upper bound going down; move to N-2. -/
def execAdvUbBack (s : State) : Host.Outcome State Fault Refusal :=
  advanceAs AdvKey.ubBack s (s.regs.pos - 1) s.regs.dir

/-- `ADV_INT_UP` (R105): in the interior going up. -/
def execAdvIntUp (s : State) : Host.Outcome State Fault Refusal :=
  advanceAs AdvKey.intUp s (s.regs.pos + 1) s.regs.dir

/-- `ADV_INT_DN` (R106): in the interior going down. -/
def execAdvIntDn (s : State) : Host.Outcome State Fault Refusal :=
  advanceAs AdvKey.intDn s (s.regs.pos - 1) s.regs.dir

/-- The case an advance key decodes to. A phase operation is no case: no key decodes to one. -/
def runAdvanceCase (i : Instr) (s : State) : Host.Outcome State Fault Refusal :=
  match i with
  | .advLbRev => execAdvLbRev s
  | .advLbFwd => execAdvLbFwd s
  | .advUbRev => execAdvUbRev s
  | .advUbBack => execAdvUbBack s
  | .advIntUp => execAdvIntUp s
  | .advIntDn => execAdvIntDn s
  | .adv | .shLo | .shHi | .ltHi | .ltLo | .wait => .refused .caseNotSelected

/-- `ADV` (R100): form the key, decode it, run its case; a reserved key is a fault (R79, R161). -/
def execAdv (s : State) : Host.Outcome State Fault Refusal :=
  match decodeAdvKey (advKey s.params s.regs) with
  | .ok i => runAdvanceCase i s
  | .error _ => .fault .reservedAdvanceKey

end Sys2Proof.Machine
end

