-- ==== Sys2Proof/Machine/Dispatch.lean ====
section
/-! DEFINITION. One arm per operation: the meaning it calls. -/

namespace Sys2Proof.Machine

/-- The effect of one operation in one cycle. Which operation runs is the step's business (R36, R85). -/
def exec (i : Instr) (s : State) : Host.Outcome State Fault Refusal :=
  match i with
  | .adv => Sys2Proof.Machine.execAdv s
  | .shLo => Sys2Proof.Machine.execShLo s
  | .shHi => Sys2Proof.Machine.execShHi s
  | .ltHi => Sys2Proof.Machine.execLtHi s
  | .ltLo => Sys2Proof.Machine.execLtLo s
  | .wait => Sys2Proof.Machine.execWait s
  | .advIntUp => Sys2Proof.Machine.execAdvIntUp s
  | .advIntDn => Sys2Proof.Machine.execAdvIntDn s
  | .advUbRev => Sys2Proof.Machine.execAdvUbRev s
  | .advUbBack => Sys2Proof.Machine.execAdvUbBack s
  | .advLbFwd => Sys2Proof.Machine.execAdvLbFwd s
  | .advLbRev => Sys2Proof.Machine.execAdvLbRev s

end Sys2Proof.Machine
end

