-- ==== Sys2Proof/Machine/Step.lean ====
section
/-! DEFINITION. One step of the machine: one cycle of `clk` (10_state.md R36). -/

namespace Sys2Proof.Machine

/-- One rising edge of `clk` (R36): what the cycle's event says. -/
def step (s : State) : Host.Outcome State Fault Refusal :=
  match s.event with
  | .noMachine => .refused .illegalParams
  | .reset => .next s.applyReset
  | .fault f => .fault f
  | .run i => exec i s

/-- `s` with the selector code `w` where the step reads its operation: the register `phase` (R33, R85). `rst` is 0 in this
cycle and no fault state is held, so that the next step runs it; nothing else changes (log entry 10). -/
def State.withFetchWord (s : State) (_nbits w : Nat) : State :=
  { s with
    regs := { s.regs with phase := BitVec.ofNat 3 w }
    rst := match s.rst with
      | [] => []
      | _ :: later => false :: later
    faulted := none }

end Sys2Proof.Machine
end

