-- ==== Sys2Proof/Machine/Timing.lean ====
section
/-! DEFINITION. The constants derived from a build: 00_scope.md R8, 10_state.md R35, 70_reset_and_hazards.md R194. -/

namespace Sys2Proof

/-- `WORK = 1 + 18 * HALF_CYC`: the cycles one tick spends working (R8). -/
def Params.work (p : Params) : Nat := 1 + 18 * p.halfCyc

/-- `INTERVAL = max(TICK_CYC, WORK)`: the cycles between two consecutive `ADV` cycles (R8, R145). -/
def Params.interval (p : Params) : Nat := max p.tickCyc p.work

/-- `PERIOD = 2 * N`: the ticks after which position, direction and pattern repeat (R8, R112). -/
def Params.period (p : Params) : Nat := 2 * p.n

/-- Length of `WAIT`, `TICK_CYC - WORK` where positive, 0 where it is never entered (R73, R144). -/
def Params.waitCyc (p : Params) : Nat := p.tickCyc - p.work

/-- Latency from an `ADV` cycle to its pattern being visible: `16 * HALF_CYC + 1` (R184, R194). -/
def Params.latency (p : Params) : Nat := 16 * p.halfCyc + 1

/-- `HCNT_W`, the width of `hcnt` (R35). -/
def Params.hcntWidth (p : Params) : Nat := max 1 (Nat.clog 2 p.halfCyc)

/-- `TCNT_W`, the width of `tcnt` (R35). -/
def Params.tcntWidth (p : Params) : Nat := Nat.clog 2 (max (18 * p.halfCyc) (p.tickCyc - 1) + 1)

/-- The nominal half-period, 10 µs in cycles, "informative only" (R7, 93 X3); nothing reads it (log entry 14). -/
def Params.nominalHalfCyc (p : Params) : Nat := 10 * p.cycPerUs

end Sys2Proof
end

