-- ==== Sys2Proof/Machine/Scenario.lean ====
section
/-! DEFINITION. The notation around the machine: pseudo-operations (30_encoding.md R84), traces (R83) and scenarios (R86), and the
cycle-by-cycle history that goes through a fault state (60_exceptions.md R162, R187). -/

namespace Sys2Proof.Machine

/-- Goes on with what `o` answers as a next value, and stops where `o` stops. -/
def andThen {α β : Type} (o : Host.Outcome α Fault Refusal) (f : α → Host.Outcome β Fault Refusal) :
    Host.Outcome β Fault Refusal :=
  match o with
  | .next a => f a
  | .fault e => .fault e
  | .refused r => .refused r

/-- The state in the next cycle, the fault state included: a raised fault moves the model to the fault state (R162). An illegal
build has no machine, so no next cycle: the refusal stands (R9). -/
def State.nextCycle (s : State) : Host.Outcome State Fault Refusal :=
  match step s with
  | .next t => .next t
  | .fault f => .next (s.enterFault f)
  | .refused r => .refused r

/-- The states of the next `k` cycles, this one first; refused for an illegal build, even where no step is taken (R9). -/
def State.history : Nat → State → Host.Outcome (List State) Fault Refusal
  | 0, s => if s.params.legal then .next [s] else .refused .illegalParams
  | k + 1, s => andThen s.nextCycle fun t => andThen (State.history k t) fun later => .next (s :: later)

/-- One cycle of a pseudo-operation: the operation and, in a shift slot, its bit. -/
abbrev PhaseCycle := Instr × Option Nat

/-- `SHIFTBIT k` (R84). -/
def shiftBitOp (p : Params) (k : Nat) : List PhaseCycle :=
  List.replicate p.halfCyc (.shLo, some k) ++ List.replicate p.halfCyc (.shHi, some k)

/-- `LATCH` (R84). -/
def latchOp (p : Params) : List PhaseCycle :=
  List.replicate p.halfCyc (.ltHi, none) ++ List.replicate p.halfCyc (.ltLo, none)

/-- `FRAME` (R84): the source's `transmit(pattern)`. -/
def frameOp (p : Params) : List PhaseCycle :=
  ([7, 6, 5, 4, 3, 2, 1, 0].map (shiftBitOp p)).flatten ++ latchOp p

/-- `TICK` (R84): one iteration of the source's loop. -/
def tickOp (p : Params) : List PhaseCycle :=
  (.adv, none) :: (frameOp p ++ List.replicate p.waitCyc (.wait, none))

/-- A scenario (R86): the build, the cycles at whose end `rst = 1`, and the last cycle run. -/
structure Scenario where
  params : Params
  resets : List Nat
  last : Nat
deriving DecidableEq, Repr

/-- The levels of `rst` a scenario gives, cycle by cycle. -/
def Scenario.rstLevels (c : Scenario) : List Bool :=
  (List.range c.last).map fun k => decide (k ∈ c.resets)

/-- The start of a scenario: the reset state of its build (R86); an illegal build is refused, no machine is constructed (R9). -/
def Scenario.start (c : Scenario) (rx : Receiver) : Host.Outcome State Fault Refusal :=
  if c.params.legal then .next (State.boot c.params rx c.rstLevels) else .refused .illegalParams

/-- The result of a scenario: the state in cycle `C` (R86); refused for an illegal build (R9). -/
def Scenario.result (c : Scenario) (rx : Receiver) : Host.Outcome State Fault Refusal :=
  andThen (c.start rx) fun s => Sys2Proof.core.run c.last s

/-- The pin trace of a scenario up to cycle `C` (R86); refused for an illegal build, which has no machine and no pins (R9). -/
def Scenario.pinTrace (c : Scenario) (rx : Receiver) : Host.Outcome (List Pins) Fault Refusal :=
  andThen (c.start rx) fun s => andThen (State.history c.last s) fun states => .next (states.map State.pins)

/-- The mnemonic of an operation, as R70 and R79 write it. -/
def mnemonic : Instr → String
  | .adv => "ADV"
  | .shLo => "SH_LO"
  | .shHi => "SH_HI"
  | .ltHi => "LT_HI"
  | .ltLo => "LT_LO"
  | .wait => "WAIT"
  | .advIntUp => "ADV_INT_UP"
  | .advIntDn => "ADV_INT_DN"
  | .advUbRev => "ADV_UB_REV"
  | .advUbBack => "ADV_UB_BACK"
  | .advLbFwd => "ADV_LB_FWD"
  | .advLbRev => "ADV_LB_REV"

/-- The operation part of a trace line: the mnemonic, with the advance case of an `ADV` line, the bit index of a shift slot and
the half-period count of a frame phase (R83). R83 gives no text for a reserved phase code: the model writes `reserved`; where the
advance key is reserved it writes `ADV` alone (log entry 16, DESIGN CHOICE). -/
def operationText (p : Params) (r : Regs) : String :=
  let bit := " b" ++ toString r.bitidx.toNat
  let half := " .h" ++ toString r.hcnt
  match decodePhase r.phase with
  | .ok .adv =>
    match decodeAdvKey (advKey p r) with
    | .ok i => "ADV(" ++ mnemonic i ++ ")"
    | .error _ => "ADV"
  | .ok .shLo => "SH_LO" ++ bit ++ half
  | .ok .shHi => "SH_HI" ++ bit ++ half
  | .ok i => if decide (i = .wait) then "WAIT" else mnemonic i ++ half
  | .error _ => "reserved"

/-- A byte as the traces write it: `0x` and two hexadecimal digits (R10, R83). -/
def hexText (b : Byte) : String :=
  let digit (d : Nat) : String := String.singleton ("0123456789ABCDEF".toList.getD d '?')
  "0x" ++ digit (b.toNat / 16) ++ digit (b.toNat % 16)

/-- One line of a cycle-by-cycle trace, with the receiver's `S` and `Q` appended (R83). -/
def State.traceLine (s : State) (cycle : Nat) : String :=
  let r := s.regs
  let level (b : Bool) : String := if b then "1" else "0"
  let direction : String := match r.dir with
    | .asc => "Asc"
    | .desc => "Desc"
  "c=" ++ toString cycle ++ " " ++ operationText s.params r
    ++ " ser=" ++ level r.ser ++ " sclk=" ++ level r.sclk ++ " lclk=" ++ level r.lclk
    ++ " pos=" ++ toString r.pos.toNat ++ " dir=" ++ direction ++ " pat=" ++ hexText r.pat
    ++ " tcnt=" ++ toString r.tcnt ++ " ovr=" ++ level r.ovr
    ++ "  S=" ++ hexText s.rx.chain ++ " Q=" ++ hexText s.rx.out

end Sys2Proof.Machine
end

