-- ==== Sys2Proof/Safety.lean ====
section
/-! DEFINITION. What a safe run is: the invariants of 10_state.md R37, the receiver's part in a frame (20_memory.md R60), and the
closed form of the sequence (40_sequencer.md R112), in the terms the statements use. -/

namespace Sys2Proof.Machine

/-- I1: `pos < N`. -/
abbrev Regs.posInRange (p : Params) (r : Regs) : Prop := r.pos.toNat < p.n

/-- I2: `sclk = 1` exactly in `SH_HI`, `lclk = 1` exactly in `LT_HI`. -/
abbrev Regs.clocksFollowPhase (r : Regs) : Prop :=
  (r.sclk = true ↔ r.phase = Phase.shHi) ∧ (r.lclk = true ↔ r.phase = Phase.ltHi)

/-- I3: `hcnt < H`, and `hcnt = 0` in `ADV` and `WAIT`. -/
abbrev Regs.halfCountInRange (p : Params) (r : Regs) : Prop :=
  r.hcnt < p.halfCyc ∧ (r.phase = Phase.adv ∨ r.phase = Phase.wait → r.hcnt = 0)

/-- I4: outside `ADV` the pattern is the trail of the chaser state. -/
abbrev Regs.patternIsTrail (p : Params) (r : Regs) : Prop :=
  r.phase ≠ Phase.adv → r.pat = trail p.n r.pos r.dir

/-- I5: what the data line holds, and `bitidx = 0` outside the shift phases. -/
abbrev Regs.dataOnLine (r : Regs) : Prop :=
  (r.phase = Phase.shLo ∨ r.phase = Phase.shHi → r.ser = dataBit r.pat r.bitidx) ∧
  (r.phase = Phase.ltHi ∨ r.phase = Phase.ltLo ∨ r.phase = Phase.wait ∨ r.phase = Phase.adv →
    r.ser = dataBit r.pat 0 ∧ r.bitidx = 0)

/-- I6: the tick counter in every phase. -/
abbrev Regs.tickCounted (p : Params) (r : Regs) : Prop :=
  (r.phase = Phase.adv → r.tcnt = 0) ∧
  (r.phase = Phase.shLo → r.tcnt = 1 + 2 * p.halfCyc * (7 - r.bitidx.toNat) + r.hcnt) ∧
  (r.phase = Phase.shHi → r.tcnt = 1 + 2 * p.halfCyc * (7 - r.bitidx.toNat) + p.halfCyc + r.hcnt) ∧
  (r.phase = Phase.ltHi → r.tcnt = 1 + 16 * p.halfCyc + r.hcnt) ∧
  (r.phase = Phase.ltLo → r.tcnt = 1 + 17 * p.halfCyc + r.hcnt) ∧
  (r.phase = Phase.wait → p.work ≤ r.tcnt ∧ r.tcnt ≤ p.tickCyc - 1)

/-- I7: `phase` is no reserved code. -/
abbrev Regs.phaseNotReserved (r : Regs) : Prop := r.phase ≠ 0b110 ∧ r.phase ≠ 0b111

/-- I8: pattern bits `N` to 7 are 0. -/
abbrev Regs.patternInWidth (p : Params) (r : Regs) : Prop := r.pat >>> p.n = 0

/-- The invariants I1 to I8 of R37, for a legal build (R9) that is in no fault state. -/
abbrev State.Inv (s : State) : Prop :=
  s.params.legal = true ∧ s.faulted = none ∧
  s.regs.posInRange s.params ∧ s.regs.clocksFollowPhase ∧ s.regs.halfCountInRange s.params ∧
  s.regs.patternIsTrail s.params ∧ s.regs.dataOnLine ∧ s.regs.tickCounted s.params ∧
  s.regs.phaseNotReserved ∧ s.regs.patternInWidth s.params

/-- How far the receiver has come in the current frame, whatever it held before (R60): in slot `k` the low stages of the chain
hold the pattern bits already shifted, and from the latch on both its registers hold the pattern. -/
abbrev State.receiverInStep (s : State) : Prop :=
  (s.regs.phase = Phase.shLo →
    s.rx.chain.toNat % 2 ^ (7 - s.regs.bitidx.toNat) = s.regs.pat.toNat / 2 ^ (s.regs.bitidx.toNat + 1)) ∧
  (s.regs.phase = Phase.shHi →
    s.rx.chain.toNat % 2 ^ (8 - s.regs.bitidx.toNat) = s.regs.pat.toNat / 2 ^ s.regs.bitidx.toNat) ∧
  (s.regs.phase = Phase.ltHi ∨ s.regs.phase = Phase.ltLo ∨ s.regs.phase = Phase.wait →
    s.rx.chain = s.regs.pat ∧ s.rx.out = s.regs.pat)

/-- `rst = 0` in this cycle and the `k - 1` after it. -/
abbrev State.quietFor (s : State) (k : Nat) : Prop := ∀ b ∈ s.rst.take k, b = false

/-- The chaser state after tick `t` from reset, with `u = t mod 2N`: the table of R112. -/
def chaserAt (n u : Nat) : Code × Dir :=
  if u < n then (BitVec.ofNat 3 u, .asc) else (BitVec.ofNat 3 (2 * n - 1 - u), .desc)

/-- The pattern loaded at tick `t` from reset, with `u = t mod 2N`: the table of R112. -/
def patternAt (n u : Nat) : Byte :=
  if u = 0 then 0x01
  else if u < n then oneBit (u - 1) ||| oneBit u
  else if u = n then oneBit (n - 1)
  else oneBit (2 * n - 1 - u) ||| oneBit (2 * n - u)

/-- The line levels of R55 in cycle `j` of a tick whose frame sends `pat`: data, shift clock, latch clock (for `1 ≤ j ≤ 18H`). -/
def frameLines (h : Nat) (pat : Byte) (j : Nat) : Bool × Bool × Bool :=
  if j ≤ 16 * h then (pat.getLsbD (7 - (j - 1) / (2 * h)), decide (h ≤ (j - 1) % (2 * h)), false)
  else (pat.getLsbD 0, false, decide (j ≤ 17 * h))

/-- The operation of a cycle and, in a shift slot, its bit, as R84 lists them. -/
def State.phaseCycle (s : State) : Option PhaseCycle :=
  match decodePhase s.regs.phase with
  | .ok i =>
    some (i, if i = .shLo ∨ i = .shHi then some s.regs.bitidx.toNat else none)
  | .error _ => none

end Sys2Proof.Machine
end

