-- ==== Sys2Proof/Certificates/Slice0/Obligations.lean ====
section
/-! DEFINITION. The statements for the provers. Codes and values are written out as the spec writes them, so that a statement does
not rest on the model's own names for them. -/

open Sys2Proof Sys2Proof.Machine

/-! ### Encoding -/

/-- R70 and R79: the words of the two tables decode as the tables say (one of every family). -/
def Obligations.TableWordsDecode : Prop :=
  decodePhase 0b000 = .ok .adv ∧ decodePhase 0b001 = .ok .shLo ∧ decodePhase 0b010 = .ok .shHi ∧
  decodePhase 0b011 = .ok .ltHi ∧ decodePhase 0b100 = .ok .ltLo ∧ decodePhase 0b101 = .ok .wait ∧
  decodeAdvKey 0b000 = .ok .advIntUp ∧ decodeAdvKey 0b011 = .ok .advUbBack ∧ decodeAdvKey 0b101 = .ok .advLbRev

/-- R70, R79, R85: in each selector the codes of operations are exactly the encoder's, both ways round. -/
def Obligations.DecodeAndEncodeAgree : Prop :=
  ∀ (f : Format) (c : Code) (i : Instr), decode f c = .ok i ↔ i.wellFormed f = true ∧ encode i = c

/-- R71, R79, R82: a code is rejected exactly when it is 0b110 or 0b111, in either selector, each under its own name. -/
def Obligations.ReservedCodesRejected : Prop :=
  ∀ c : Code, (decodePhase c = .error .reservedPhase ↔ c = 0b110 ∨ c = 0b111) ∧
    (decodeAdvKey c = .error .reservedAdvanceKey ↔ c = 0b110 ∨ c = 0b111)

/-! ### The step, its faults and reset -/

/-- R36: the step of a legal build that is in no fault state, branch by branch in the spec's order; the reset state is written out
(R23), with the receiver as it was (R183). For `0 < hcnt < HALF_CYC` in `ADV` and `WAIT` it says R36 and not R37's last sentence (log
entry 17). -/
def Obligations.StepRunsSelectedOperation : Prop :=
  ∀ s : State, s.params.legal = true → s.faulted = none →
    step s =
      if s.rstNow then
        .next { s with
          regs := { phase := 0b000, pos := 0, dir := .asc, pat := 0x00, bitidx := 0, hcnt := 0, tcnt := 0,
                    ser := false, sclk := false, lclk := false, ovr := false }
          rst := s.rst.tail }
      else if s.regs.pos.toNat ≥ s.params.n then .fault .posOutOfRange
      else if s.regs.hcnt ≥ s.params.halfCyc then .fault .hcntOutOfRange
      else if s.regs.phase = 0b000 then exec .adv s
      else if s.regs.phase = 0b001 then exec .shLo s
      else if s.regs.phase = 0b010 then exec .shHi s
      else if s.regs.phase = 0b011 then exec .ltHi s
      else if s.regs.phase = 0b100 then exec .ltLo s
      else if s.regs.phase = 0b101 then exec .wait s
      else .fault .reservedPhase

/-- R36, R85: where the checks pass and `phase` decodes to a (well-formed) operation, the step is that operation, nothing around
it. (The checks are R36's, not R37's last sentence: the model's choice, log entry 17.) -/
def Obligations.StepIsExecOfDecoded : Prop :=
  ∀ (s : State) (i : Instr), s.params.legal = true → s.rstNow = false → s.faulted = none →
    s.regs.pos.toNat < s.params.n → s.regs.hcnt < s.params.halfCyc → decode .phase s.regs.phase = .ok i →
    i.wellFormed .phase = true ∧ step s = exec i s

/-- R9: a build with `N < 2`, `N > 8`, `HALF_CYC < 1` or `TICK_CYC < 1` is refused, in every state and whatever `rst` is: no step, no next
cycle, no history of any length, and no start, result or pin trace of a scenario. -/
def Obligations.IllegalBuildRefused : Prop :=
  ∀ p : Params, p.n < 2 ∨ p.n > 8 ∨ p.halfCyc < 1 ∨ p.tickCyc < 1 →
    (∀ s : State, s.params = p →
      step s = .refused .illegalParams ∧ s.nextCycle = .refused .illegalParams ∧
        ∀ k, State.history k s = .refused .illegalParams) ∧
    ∀ (c : Scenario) (x : Receiver), c.params = p →
      c.start x = .refused .illegalParams ∧ c.result x = .refused .illegalParams ∧
        c.pinTrace x = .refused .illegalParams

/-- R9, R74: a legal build is never refused, in any state: every step of it is a next state or one of the spec's faults. -/
def Obligations.LegalBuildNeverRefused : Prop :=
  ∀ (s : State) (why : Refusal), s.params.legal = true → step s ≠ .refused why

/-- R161, R163: the faults a step of a legal build that is in no fault state can raise, each with exactly the condition under which
the order of the checks reports it. The reserved advance key is never among them. (That a count below `HALF_CYC` never faults, not
in `ADV` or `WAIT` either, is the model's choice, log entry 17.) -/
def Obligations.StepFaultsExactlyAsListed : Prop :=
  ∀ (s : State) (f : Fault), s.params.legal = true → s.faulted = none →
    (step s = .fault f ↔
      s.rstNow = false ∧
        ((f = .posOutOfRange ∧ s.params.n ≤ s.regs.pos.toNat) ∨
         (f = .hcntOutOfRange ∧ s.regs.pos.toNat < s.params.n ∧ s.params.halfCyc ≤ s.regs.hcnt) ∨
         (f = .reservedPhase ∧ s.regs.pos.toNat < s.params.n ∧ s.regs.hcnt < s.params.halfCyc ∧
           (s.regs.phase = 0b110 ∨ s.regs.phase = 0b111))))

/-- R162: a fault state has no step while `rst = 0`, it keeps its reason cycle after cycle. (That the registers keep their values
in it is the model's choice, log entry 8.) -/
def Obligations.FaultStateKeepsItsReason : Prop :=
  ∀ (s : State) (f : Fault), s.params.legal = true → (s.enterFault f).rstNow = false →
    step (s.enterFault f) = .fault f ∧ (s.enterFault f).nextCycle = .next ((s.enterFault f).enterFault f) ∧
      (s.enterFault f).regs = s.regs

/-- R187: reset leaves a fault state as it leaves any other. -/
def Obligations.ResetLeavesFaultState : Prop :=
  ∀ (s : State) (f : Fault), s.params.legal = true → s.faulted = some f → s.rstNow = true →
    ∃ t, step s = .next t ∧ t.faulted = none ∧ t.rst = s.rst.tail ∧ t.params = s.params ∧ t.rx = s.rx ∧
      t.regs = { phase := 0b000, pos := 0, dir := .asc, pat := 0x00, bitidx := 0, hcnt := 0, tcnt := 0,
                 ser := false, sclk := false, lclk := false, ovr := false }

/-- R23, R180: the registers of the reset state, for every build; the receiver is whatever the environment makes it (R61). -/
def Obligations.BootStateIsResetState : Prop :=
  (∀ (p : Params) (x : Receiver) (l : List Bool),
    State.boot p x l =
      { params := p, rx := x, rst := l, faulted := none,
        regs := { phase := 0b000, pos := 0, dir := .asc, pat := 0x00, bitidx := 0, hcnt := 0, tcnt := 0,
                  ser := false, sclk := false, lclk := false, ovr := false } }) ∧
  State.reset.regs = (State.boot State.reset.params State.reset.rx []).regs ∧ State.reset.params.n = 6

/-- R180: a cycle with `rst = 1` is followed by the reset state, whatever the state and the phase; reset state in a cycle with
`rst = 1` stays the reset state; in one with `rst = 0` it performs `ADV`. -/
def Obligations.ResetTakesEveryRegister : Prop :=
  ∀ s : State, s.params.legal = true →
    (s.rstNow = true →
      ∃ t, step s = .next t ∧ t.faulted = none ∧ t.rst = s.rst.tail ∧ t.params = s.params ∧
        t.regs = { phase := 0b000, pos := 0, dir := .asc, pat := 0x00, bitidx := 0, hcnt := 0, tcnt := 0,
                   ser := false, sclk := false, lclk := false, ovr := false }) ∧
    (s.rstNow = false → s.faulted = none →
      s.regs = { phase := 0b000, pos := 0, dir := .asc, pat := 0x00, bitidx := 0, hcnt := 0, tcnt := 0,
                 ser := false, sclk := false, lclk := false, ovr := false } →
      step s = exec .adv s)

/-- R183: in the cycle after a reset edge all four outputs are 0, no line has a rising edge, and the receiver is as it was. -/
def Obligations.ResetReachesNoReceiver : Prop :=
  ∀ s : State, s.params.legal = true → s.rstNow = true →
    ∃ t, step s = .next t ∧ t.pins = ⟨false, false, false, false⟩ ∧ t.rx = s.rx

/-! ### The sequencer -/

/-- R78: the three fields of the advance key; in a legal build both bounds are never reported at once. -/
def Obligations.AdvanceKeyFields : Prop :=
  ∀ (p : Params) (r : Regs),
    (advKey p r).getLsbD 2 = decide (r.pos = 0) ∧
    (advKey p r).getLsbD 1 = decide ((r.pos.toNat : Int) = p.n - 1) ∧
    (advKey p r).getLsbD 0 = decide (r.dir = .desc) ∧
    (p.legal = true → ((advKey p r).getLsbD 2 && (advKey p r).getLsbD 1) = false)

/-- R101: `ADV_LB_REV`, alone and as the case `ADV` selects; the next advance moves to 1. -/
def Obligations.AdvLbRevReversesAtZero : Prop :=
  ∀ s : State, s.params.legal = true → s.regs.pos = 0 → s.regs.dir = .desc →
    ∃ t, t = { s with
          regs := { s.regs with
            pos := 0, dir := .asc, pat := 0x01, bitidx := 7, hcnt := 0, ser := false, sclk := false, lclk := false,
            tcnt := s.regs.tcnt + 1, phase := 0b001 }
          rst := s.rst.tail } ∧
      advKey s.params s.regs = 0b101 ∧ exec .advLbRev s = .next t ∧ exec .adv s = .next t ∧
      ∀ u : State, u.params = s.params → u.regs.pos = t.regs.pos → u.regs.dir = t.regs.dir →
        advKey u.params u.regs = 0b100 ∧ ∃ v, exec .adv u = .next v ∧ v.regs.pos = 1

/-- R102: `ADV_LB_FWD`, alone and as the case `ADV` selects; it is the case of the reset state. -/
def Obligations.AdvLbFwdLeavesZero : Prop :=
  (∀ p : Params, p.legal = true → advKey p Regs.reset = 0b100) ∧
  ∀ s : State, s.params.legal = true → s.regs.pos = 0 → s.regs.dir = .asc →
    ∃ t, t = { s with
          regs := { s.regs with
            pos := 1, dir := .asc, pat := 0x03, bitidx := 7, hcnt := 0, ser := false, sclk := false, lclk := false,
            tcnt := s.regs.tcnt + 1, phase := 0b001 }
          rst := s.rst.tail } ∧
      advKey s.params s.regs = 0b100 ∧ exec .advLbFwd s = .next t ∧ exec .adv s = .next t ∧
      t.regs.pos.toNat ≤ s.params.n - 1

/-- R103: `ADV_UB_REV`, alone and as the case `ADV` selects; the pattern is `1 << (N-1)` for every `N`. -/
def Obligations.AdvUbRevReversesAtTop : Prop :=
  ∀ s : State, s.params.legal = true → s.regs.pos.toNat = s.params.n - 1 → s.regs.dir = .asc →
    ∃ t, t = { s with
          regs := { s.regs with
            dir := .desc, pat := 1#8 <<< (s.params.n - 1), bitidx := 7, hcnt := 0, ser := decide (s.params.n = 8),
            sclk := false, lclk := false, tcnt := s.regs.tcnt + 1, phase := 0b001 }
          rst := s.rst.tail } ∧
      advKey s.params s.regs = 0b010 ∧ exec .advUbRev s = .next t ∧ exec .adv s = .next t

/-- R104: `ADV_UB_BACK`, alone and as the case `ADV` selects. -/
def Obligations.AdvUbBackLeavesTop : Prop :=
  ∀ s : State, s.params.legal = true → s.regs.pos.toNat = s.params.n - 1 → s.regs.dir = .desc →
    ∃ t, t = { s with
          regs := { s.regs with
            pos := BitVec.ofNat 3 (s.params.n - 2), dir := .desc,
            pat := (1#8 <<< (s.params.n - 1)) ||| (1#8 <<< (s.params.n - 2)), bitidx := 7, hcnt := 0,
            ser := decide (s.params.n = 8), sclk := false, lclk := false, tcnt := s.regs.tcnt + 1, phase := 0b001 }
          rst := s.rst.tail } ∧
      advKey s.params s.regs = 0b011 ∧ exec .advUbBack s = .next t ∧ exec .adv s = .next t

/-- R105: `ADV_INT_UP`, alone and as the case `ADV` selects; the new position stays in range, the direction is kept even where it
lands on the upper bound, and the reversal is the next advance's case. -/
def Obligations.AdvIntUpMovesUp : Prop :=
  ∀ s : State, s.params.legal = true → 0 < s.regs.pos.toNat → s.regs.pos.toNat < s.params.n - 1 → s.regs.dir = .asc →
    ∃ t, t = { s with
          regs := { s.regs with
            pos := BitVec.ofNat 3 (s.regs.pos.toNat + 1), dir := .asc,
            pat := (1#8 <<< s.regs.pos.toNat) ||| (1#8 <<< (s.regs.pos.toNat + 1)), bitidx := 7, hcnt := 0,
            ser := decide (s.regs.pos.toNat = 6), sclk := false, lclk := false, tcnt := s.regs.tcnt + 1,
            phase := 0b001 }
          rst := s.rst.tail } ∧
      advKey s.params s.regs = 0b000 ∧ exec .advIntUp s = .next t ∧ exec .adv s = .next t ∧
      t.regs.pos.toNat = s.regs.pos.toNat + 1 ∧ t.regs.pos.toNat ≤ s.params.n - 1 ∧ s.params.n ≠ 2 ∧
      ∀ u : State, u.params = s.params → u.regs.pos = t.regs.pos → u.regs.dir = t.regs.dir →
        t.regs.pos.toNat = s.params.n - 1 → advKey u.params u.regs = 0b010

/-- R106: `ADV_INT_DN`, alone and as the case `ADV` selects; where it lands on 0 the reversal is the next advance's case. -/
def Obligations.AdvIntDnMovesDown : Prop :=
  ∀ s : State, s.params.legal = true → 0 < s.regs.pos.toNat → s.regs.pos.toNat < s.params.n - 1 → s.regs.dir = .desc →
    ∃ t, t = { s with
          regs := { s.regs with
            pos := BitVec.ofNat 3 (s.regs.pos.toNat - 1), dir := .desc,
            pat := (1#8 <<< s.regs.pos.toNat) ||| (1#8 <<< (s.regs.pos.toNat - 1)), bitidx := 7, hcnt := 0,
            ser := false, sclk := false, lclk := false, tcnt := s.regs.tcnt + 1, phase := 0b001 }
          rst := s.rst.tail } ∧
      advKey s.params s.regs = 0b001 ∧ exec .advIntDn s = .next t ∧ exec .adv s = .next t ∧
      t.regs.pos.toNat = s.regs.pos.toNat - 1 ∧ s.params.n ≠ 2 ∧
      ∀ u : State, u.params = s.params → u.regs.pos = t.regs.pos → u.regs.dir = t.regs.dir →
        t.regs.pos.toNat = 0 → advKey u.params u.regs = 0b101

/-- R100: `ADV` completes in every state of a legal build whose position is in range, with every register but `pos` and `dir`
written out, and the pattern bit by bit (R107): the light at `pos` and its neighbour ahead, if there is one in the array, both of
the state BEFORE the move. -/
def Obligations.AdvLoadsPatternOfOldState : Prop :=
  ∀ s : State, s.params.legal = true → s.regs.pos.toNat < s.params.n →
    ∃ t, exec .adv s = .next t ∧
      t.regs = { s.regs with
        pos := t.regs.pos, dir := t.regs.dir, pat := t.regs.pat, bitidx := 7, hcnt := 0, ser := t.regs.pat.getLsbD 7,
        sclk := false, lclk := false, tcnt := s.regs.tcnt + 1, phase := 0b001 } ∧
      ∀ k : Nat, k < 8 → (t.regs.pat.getLsbD k = true ↔
        k = s.regs.pos.toNat ∨ (s.regs.dir = .asc ∧ k = s.regs.pos.toNat + 1 ∧ k < s.params.n) ∨
          (s.regs.dir = .desc ∧ k + 1 = s.regs.pos.toNat))

/-- Frame of `ADV` and its six cases (R100, R115): they write no status but `dir`, not the build, not the receiver, and leave the
fault state alone. -/
def Obligations.AdvanceFrame : Prop :=
  ∀ (i : Instr) (s t : State), i = .adv ∨ i.format = .advKey → exec i s = .next t →
    t.params = s.params ∧ t.faulted = s.faulted ∧ t.rx = s.rx ∧ t.rst = s.rst.tail ∧ t.regs.ovr = s.regs.ovr ∧
    (t.regs.pos = s.regs.pos ∨ t.regs.dir = s.regs.dir)

/-- R79, R161: where both bounds hold, which needs `N = 1`, `ADV` raises the reserved-key fault and no case runs. -/
def Obligations.BothBoundsFault : Prop :=
  ∀ s : State, s.params.n = 1 → s.regs.pos = 0 →
    exec .adv s = .fault .reservedAdvanceKey ∧ ∀ i : Instr, i.format = .advKey → exec i s = .refused .caseNotSelected

/-- R101-R106, "Operands": asked for in a state that is not the case's, a case has no meaning and is refused by name (the model's
choice, log entry 7; no step does this). -/
def Obligations.CaseOutsideItsOperandsRefused : Prop :=
  ∀ (i : Instr) (s : State), i.format = .advKey →
    s.params.n ≤ s.regs.pos.toNat ∨ advKey s.params s.regs ≠ encode i → exec i s = .refused .caseNotSelected

/-- R108: the guard drops an index outside `[0, N-1]`, clamping the index instead gives the same pattern, and index `N` is dropped
even where bit `N` exists. -/
def Obligations.GuardMasksLikeClamp : Prop :=
  ∀ (n : Nat) (p : Code) (d : Dir), 2 ≤ n → n ≤ 8 → p.toNat < n →
    (∀ a : Int, guardBit n a = if 0 ≤ a ∧ a ≤ n - 1 then 1#8 <<< a.toNat else 0x00) ∧
    pattern n p d = (1#8 <<< p.toNat) ||| (1#8 <<< (max 0 (min (adj p d) (n - 1))).toNat) ∧
    (p.toNat = n - 1 → d = .asc → adj p d = n ∧ guardBit n (adj p d) = 0x00)

/-- R109: the adjacent index leaves the array exactly in the two reversal cases, and it is -1 and `N` there. -/
def Obligations.GuardActsOnlyAtReversals : Prop :=
  ∀ (p : Params) (r : Regs), p.legal = true → r.pos.toNat < p.n →
    (¬ (0 ≤ adj r.pos r.dir ∧ adj r.pos r.dir ≤ p.n - 1) ↔ advKey p r = 0b101 ∨ advKey p r = 0b010) ∧
    (advKey p r = 0b101 → adj r.pos r.dir = -1) ∧ (advKey p r = 0b010 → adj r.pos r.dir = p.n) ∧
    advKey p Regs.reset = 0b100 ∧ adj Regs.reset.pos Regs.reset.dir = 1

/-- R110: the pattern loaded is the trail of the state after the move. -/
def Obligations.PatternIsTrailAfterMove : Prop :=
  ∀ s : State, s.params.legal = true → s.regs.pos.toNat < s.params.n →
    ∃ t, exec .adv s = .next t ∧ t.regs.pat = pattern s.params.n s.regs.pos s.regs.dir ∧
      t.regs.pat = trail s.params.n t.regs.pos t.regs.dir ∧ t.regs.pos.toNat < s.params.n

/-- R111: the shape of every pattern `ADV` loads. -/
def Obligations.PatternShape : Prop :=
  ∀ s : State, s.params.legal = true → s.regs.pos.toNat < s.params.n →
    ∃ t, exec .adv s = .next t ∧
      (if advKey s.params s.regs = 0b101 then t.regs.pat = 0x01
       else if advKey s.params s.regs = 0b010 then t.regs.pat = 1#8 <<< (s.params.n - 1)
       else ∃ q, q ≤ s.params.n - 2 ∧ t.regs.pat = (1#8 <<< q) ||| (1#8 <<< (q + 1))) ∧
      ∀ k, s.params.n ≤ k → t.regs.pat.getLsbD k = false

/-- R112, one tick: from row `u` of the table `ADV` goes to row `u + 1` (mod `2N`), in every state that holds row `u`. -/
def Obligations.AdvanceFollowsSequenceTable : Prop :=
  ∀ (s : State) (u : Nat), s.params.legal = true → u < 2 * s.params.n →
    (s.regs.pos, s.regs.dir) = chaserAt s.params.n u →
    ∃ t, exec .adv s = .next t ∧ (t.regs.pos, t.regs.dir) = chaserAt s.params.n ((u + 1) % (2 * s.params.n)) ∧
      t.regs.pat = patternAt s.params.n ((u + 1) % (2 * s.params.n))

/-! ### The driver and the scheduler -/

/-- R120 with the receiver's side R56: `SH_LO` in every state, the whole next state. -/
def Obligations.ShLoEffect : Prop :=
  ∀ s : State,
    exec .shLo s = .next { s with
      regs :=
        if s.regs.hcnt + 1 < s.params.halfCyc then { s.regs with hcnt := s.regs.hcnt + 1, tcnt := s.regs.tcnt + 1 }
        else { s.regs with hcnt := 0, sclk := true, phase := 0b010, tcnt := s.regs.tcnt + 1 }
      rx :=
        if s.regs.hcnt + 1 < s.params.halfCyc ∨ s.regs.sclk = true then s.rx
        else { s.rx with chain := (s.rx.chain <<< 1) ||| (if s.regs.ser then 0x01 else 0x00) }
      rst := s.rst.tail }

/-- R122 and R123 with the receiver's side R57: `SH_HI` in every state, the whole next state. -/
def Obligations.ShHiEffect : Prop :=
  ∀ s : State,
    exec .shHi s = .next { s with
      regs :=
        if s.regs.hcnt + 1 < s.params.halfCyc then { s.regs with hcnt := s.regs.hcnt + 1, tcnt := s.regs.tcnt + 1 }
        else if s.regs.bitidx ≠ 0 then
          { s.regs with
            hcnt := 0, sclk := false, bitidx := s.regs.bitidx - 1,
            ser := s.regs.pat.getLsbD (s.regs.bitidx.toNat - 1), phase := 0b001, tcnt := s.regs.tcnt + 1 }
        else { s.regs with hcnt := 0, sclk := false, lclk := true, phase := 0b011, tcnt := s.regs.tcnt + 1 }
      rx :=
        if s.regs.hcnt + 1 < s.params.halfCyc ∨ s.regs.bitidx ≠ 0 ∨ s.regs.lclk = true then s.rx
        else { s.rx with out := s.rx.chain }
      rst := s.rst.tail }

/-- R124: `LT_HI` in every state, the whole next state. -/
def Obligations.LtHiEffect : Prop :=
  ∀ s : State,
    exec .ltHi s = .next { s with
      regs :=
        if s.regs.hcnt + 1 < s.params.halfCyc then { s.regs with hcnt := s.regs.hcnt + 1, tcnt := s.regs.tcnt + 1 }
        else { s.regs with hcnt := 0, lclk := false, phase := 0b100, tcnt := s.regs.tcnt + 1 }
      rst := s.rst.tail }

/-- R126 and R146: `LT_LO` and `end_of_frame` in every state, the whole next state. -/
def Obligations.LtLoEffect : Prop :=
  ∀ s : State,
    exec .ltLo s = .next { s with
      regs :=
        if s.regs.hcnt + 1 < s.params.halfCyc then { s.regs with hcnt := s.regs.hcnt + 1, tcnt := s.regs.tcnt + 1 }
        else if s.regs.tcnt + 1 ≥ s.params.tickCyc then
          { s.regs with hcnt := 0, ovr := true, tcnt := 0, phase := 0b000 }
        else { s.regs with hcnt := 0, tcnt := s.regs.tcnt + 1, phase := 0b101 }
      rst := s.rst.tail }

/-- R147: `WAIT` in every state, the whole next state. -/
def Obligations.WaitEffect : Prop :=
  ∀ s : State,
    exec .wait s = .next { s with
      regs :=
        if s.regs.tcnt + 1 ≥ s.params.tickCyc then { s.regs with tcnt := 0, phase := 0b000 }
        else { s.regs with tcnt := s.regs.tcnt + 1 }
      rst := s.rst.tail }

/-- Frame of the five other phases: none writes the chaser state, the pattern, the build or the fault state; only `SH_HI` writes
`ser`, `bitidx`, and only `LT_LO` writes `ovr`; `LT_HI`, `LT_LO` and `WAIT` leave the receiver alone. -/
def Obligations.FramePhasesFrame : Prop :=
  ∀ (i : Instr) (s t : State), i.format = .phase → i ≠ .adv → exec i s = .next t →
    t.params = s.params ∧ t.faulted = s.faulted ∧ t.rst = s.rst.tail ∧
    t.regs.pos = s.regs.pos ∧ t.regs.dir = s.regs.dir ∧ t.regs.pat = s.regs.pat ∧
    (i ≠ .shHi → t.regs.ser = s.regs.ser ∧ t.regs.bitidx = s.regs.bitidx) ∧
    (i ≠ .ltLo → t.regs.ovr = s.regs.ovr) ∧
    (i ≠ .shLo → t.rx.chain = s.rx.chain) ∧ (i ≠ .shHi → t.rx.out = s.rx.out) ∧
    (i ≠ .shLo ∧ i ≠ .shHi → t.regs.sclk = s.regs.sclk) ∧ (i ≠ .shHi ∧ i ≠ .ltHi → t.regs.lclk = s.regs.lclk)

/-- R72: the order of the phases, for every step that is not a reset: which phase follows, and what happens to `bitidx`. -/
def Obligations.PhaseOrder : Prop :=
  ∀ s t : State, s.rstNow = false → step s = .next t →
    (s.regs.phase = 0b000 → t.regs.phase = 0b001 ∧ t.regs.bitidx = 7) ∧
    (s.regs.phase = 0b001 → t.regs.bitidx = s.regs.bitidx ∧
      t.regs.phase = if s.regs.hcnt + 1 < s.params.halfCyc then 0b001 else 0b010) ∧
    (s.regs.phase = 0b010 →
      if s.regs.hcnt + 1 < s.params.halfCyc then t.regs.phase = 0b010 ∧ t.regs.bitidx = s.regs.bitidx
      else if s.regs.bitidx = 0 then t.regs.phase = 0b011 ∧ t.regs.bitidx = 0
      else t.regs.phase = 0b001 ∧ t.regs.bitidx.toNat + 1 = s.regs.bitidx.toNat) ∧
    (s.regs.phase = 0b011 →
      t.regs.phase = if s.regs.hcnt + 1 < s.params.halfCyc then 0b011 else 0b100) ∧
    (s.regs.phase = 0b100 →
      t.regs.phase = if s.regs.hcnt + 1 < s.params.halfCyc then 0b100
        else if s.regs.tcnt + 1 < s.params.tickCyc then 0b101 else 0b000) ∧
    (s.regs.phase = 0b101 →
      t.regs.phase = if s.regs.tcnt + 1 < s.params.tickCyc then 0b101 else 0b000) ∧
    s.regs.phase ≠ 0b110 ∧ s.regs.phase ≠ 0b111

/-- R24, R25, R26: between resets only the `ADV` operation writes `pos`, `dir` and `pat`, and `dir` only at a boundary. -/
def Obligations.ChaserWrittenOnlyByAdvance : Prop :=
  ∀ s t : State, s.rstNow = false → step s = .next t →
    (s.regs.phase ≠ 0b000 → t.regs.pos = s.regs.pos ∧ t.regs.dir = s.regs.dir ∧ t.regs.pat = s.regs.pat) ∧
    (t.regs.dir ≠ s.regs.dir → t.regs.pos = s.regs.pos ∧
      (s.regs.pos.toNat = 0 ∨ s.regs.pos.toNat + 1 = s.params.n))

/-- R31, R150: the overrun flag is set only by the end of an overrun frame and cleared only by reset. -/
def Obligations.OverrunFlagIsSticky : Prop :=
  ∀ s t : State, step s = .next t →
    (s.rstNow = false →
      (t.regs.ovr = true ↔ s.regs.ovr = true ∨
        (s.regs.phase = 0b100 ∧ s.regs.hcnt + 1 = s.params.halfCyc ∧ s.params.tickCyc ≤ s.regs.tcnt + 1))) ∧
    (s.rstNow = true → t.regs.ovr = false)

/-- R150: "It has no effect on any other register": two steps that differ only in `ovr` differ at most in `ovr` after. -/
def Obligations.OverrunFlagAffectsNothingElse : Prop :=
  ∀ (s t : State) (b : Bool), step s = .next t →
    ∃ t', step { s with regs := { s.regs with ovr := b } } = .next t' ∧
      { t' with regs := { t'.regs with ovr := false } } = { t with regs := { t.regs with ovr := false } }

/-- R129: "the bus has no return line": what the receiver holds never reaches the block, and it stops or lets go on no step. -/
def Obligations.ReceiverNeverReachesBlock : Prop :=
  ∀ (s t : State) (x : Receiver), step s = .next t →
    ∃ t', step { s with rx := x } = .next t' ∧ t' = { t with rx := t'.rx }

/-- R141: the tick counter counts every cycle but one whose next phase is `ADV`, which are exactly the end of an overrun frame and
the end of the wait; it never exceeds `max(18H, T - 1)` where the invariants hold, which fits its width. -/
def Obligations.TickCounterCounts : Prop :=
  ∀ s t : State, s.rstNow = false → step s = .next t →
    t.regs.tcnt = (if t.regs.phase = 0b000 then 0 else s.regs.tcnt + 1) ∧
    (t.regs.phase = 0b000 ↔
      (s.regs.phase = 0b100 ∧ s.regs.hcnt + 1 = s.params.halfCyc ∧ s.params.tickCyc ≤ s.regs.tcnt + 1) ∨
      (s.regs.phase = 0b101 ∧ s.params.tickCyc ≤ s.regs.tcnt + 1)) ∧
    (s.Inv → s.regs.tcnt ≤ max (18 * s.params.halfCyc) (s.params.tickCyc - 1) ∧
      max (18 * s.params.halfCyc) (s.params.tickCyc - 1) < 2 ^ s.params.tcntWidth)

/-! ### The receiver and the lines -/

/-- R56, R57: across every step the chain shifts exactly at a rising `sclk_o` and the outputs copy the chain exactly at a rising
`lclk_o`; the data line is the same on both sides of a shift edge (R56), and the two clocks never rise together (R57). -/
def Obligations.ReceiverFollowsTheLines : Prop :=
  ∀ s t : State, step s = .next t →
    t.rx.chain = (if s.pins.sclkO = false ∧ t.pins.sclkO = true
      then (s.rx.chain <<< 1) ||| (if t.pins.serO then 0x01 else 0x00) else s.rx.chain) ∧
    (s.pins.sclkO = false ∧ t.pins.sclkO = true → t.pins.serO = s.pins.serO) ∧
    t.rx.out = (if s.pins.lclkO = false ∧ t.pins.lclkO = true then s.rx.chain else s.rx.out) ∧
    ¬ ((s.pins.sclkO = false ∧ t.pins.sclkO = true) ∧ (s.pins.lclkO = false ∧ t.pins.lclkO = true))

/-- R190: where the invariants hold the clock lines rise only inside a frame: the shift clock as `SH_HI` is entered, the latch clock
as `LT_HI` is. -/
def Obligations.EdgesOnlyInsideFrames : Prop :=
  ∀ s t : State, s.Inv → step s = .next t →
    (s.pins.sclkO = false ∧ t.pins.sclkO = true → s.regs.phase = 0b001 ∧ t.regs.phase = 0b010) ∧
    (s.pins.lclkO = false ∧ t.pins.lclkO = true → s.regs.phase = 0b010 ∧ t.regs.phase = 0b011) ∧
    ¬ ((s.pins.sclkO = false ∧ t.pins.sclkO = true) ∧ (s.pins.lclkO = false ∧ t.pins.lclkO = true))

/-- R188: where the invariants hold the data line changes only into a cycle with the shift clock low; and but for a reset only out
of an `ADV` cycle or, as the shift clock falls, at the end of a shift pulse that is not the frame's last. -/
def Obligations.DataStableAroundShiftEdge : Prop :=
  ∀ s t : State, s.Inv → step s = .next t → t.regs.ser ≠ s.regs.ser →
    t.regs.sclk = false ∧
    (s.rstNow = false →
      s.regs.phase = 0b000 ∨
      (s.regs.phase = 0b010 ∧ s.regs.hcnt + 1 = s.params.halfCyc ∧ 0 < s.regs.bitidx.toNat ∧ s.regs.sclk = true))

/-- R59, R60, R77: from a frame's latch to the end of its tick the lights show its pattern: light `k` is lit exactly when `k` is a
light unit and bit `k` of the pattern is 1, and no output above the array is 1. -/
def Obligations.LightsShowPattern : Prop :=
  ∀ (s : State) (k : Nat), s.Inv → s.receiverInStep →
    s.regs.phase = 0b011 ∨ s.regs.phase = 0b100 ∨ s.regs.phase = 0b101 →
    s.lit k = s.regs.pat.getLsbD k ∧ (s.params.n ≤ k → s.rx.out.getLsbD k = false)

/-! ### Invariants -/

/-- R37: the invariants hold in the reset state, of the model's own reference build and of every legal build. -/
def Obligations.ResetStateSatisfiesInvariants : Prop :=
  State.reset.Inv ∧
  ∀ (p : Params) (x : Receiver) (l : List Bool), p.legal = true →
    (State.boot p x l).Inv ∧ (State.boot p x l).receiverInStep

/-- R37: every step keeps I1 to I8, whatever `rst` does. -/
def Obligations.StepKeepsInvariants : Prop :=
  ∀ s t : State, s.Inv → step s = .next t → t.Inv

/-- R162, R176: where the invariants hold the step answers a next state: no fault, no refusal, no halt. -/
def Obligations.InvariantStatesNeverStop : Prop :=
  ∀ s : State, s.Inv → ∃ t, step s = .next t

/-- R37, R162: every run from reset, of every legal build, with every receiver and every sequence of resets, goes on for ever
through states that satisfy the invariants. -/
def Obligations.RunsFromResetSatisfyInvariants : Prop :=
  ∀ (p : Params) (x : Receiver) (l : List Bool) (c : Nat), p.legal = true →
    ∃ t, Sys2Proof.core.run c (State.boot p x l) = .next t ∧ t.Inv

/-- R60, R125: every step keeps the receiver in step with the frame, whatever the receiver held before it. -/
def Obligations.StepKeepsReceiverInStep : Prop :=
  ∀ s t : State, s.Inv → s.receiverInStep → step s = .next t → t.receiverInStep

/-- R35: the counters fit the widths the spec gives them, so holding them as naturals loses nothing (log entry 4). -/
def Obligations.CountersFitTheirWidths : Prop :=
  ∀ s : State, s.Inv →
    s.regs.hcnt < 2 ^ (max 1 (Nat.clog 2 s.params.halfCyc)) ∧
    s.regs.tcnt < 2 ^ (Nat.clog 2 (max (18 * s.params.halfCyc) (s.params.tickCyc - 1) + 1))

/-- R127, R142: in the last `LT_LO` cycle the tick's work is `WORK`, a constant of the build. -/
def Obligations.WorkPerTickIsConstant : Prop :=
  ∀ s : State, s.Inv → s.regs.phase = 0b100 → s.regs.hcnt + 1 = s.params.halfCyc →
    s.regs.tcnt = 18 * s.params.halfCyc ∧ s.regs.tcnt + 1 = s.params.work

/-- R7: no step of any kind changes the build (the model holds it in State, log entry 1), and each step uses up exactly one level
of `rst` (log entry 3). -/
def Obligations.BuildNeverChanges : Prop :=
  ∀ s t : State, step s = .next t → t.params = s.params ∧ t.rst = s.rst.tail ∧ t.faulted = none

/-! ### Timing, over whole frames and ticks -/

/-- R55, R128: from an `ADV` cycle on, while `rst` stays 0, the lines in cycle `j` of the tick are those of the table of R55, for the
pattern of the chaser state before the move; in the `ADV` cycle itself the data line still has its previous value. -/
def Obligations.FrameWaveform : Prop :=
  ∀ (s : State) (j : Nat), s.Inv → s.regs.phase = 0b000 → j ≤ 18 * s.params.halfCyc → s.quietFor j →
    ∃ t, Sys2Proof.core.run j s = .next t ∧ t.regs.tcnt = j ∧
      (if j = 0 then t.regs.ser = s.regs.ser ∧ t.regs.sclk = false ∧ t.regs.lclk = false
       else t.regs.pat = pattern s.params.n s.regs.pos s.regs.dir ∧
        (t.regs.ser, t.regs.sclk, t.regs.lclk) = frameLines s.params.halfCyc t.regs.pat j)

/-- R60, R184, R194: the latch of a tick rises `16H + 1` cycles after its `ADV` cycle; from that cycle the outputs are the pattern,
whatever the receiver held, and before it they are what they were. -/
def Obligations.LatchShowsPatternAtLatency : Prop :=
  ∀ s : State, s.Inv → s.regs.phase = 0b000 → s.quietFor (16 * s.params.halfCyc + 1) →
    (∀ j, j ≤ 16 * s.params.halfCyc →
      ∃ t, Sys2Proof.core.run j s = .next t ∧ t.rx.out = s.rx.out ∧ t.regs.lclk = false) ∧
    ∃ t, Sys2Proof.core.run (16 * s.params.halfCyc + 1) s = .next t ∧ t.regs.lclk = true ∧
      t.rx.out = pattern s.params.n s.regs.pos s.regs.dir

/-- R145: consecutive `ADV` cycles are exactly `INTERVAL` apart, and tick `k + 1` after reset starts at cycle `k · INTERVAL`. -/
def Obligations.TickIntervalIsExact : Prop :=
  (∀ s : State, s.Inv → s.regs.phase = 0b000 → s.quietFor (max s.params.tickCyc (1 + 18 * s.params.halfCyc)) →
    (∀ j, 0 < j → j < max s.params.tickCyc (1 + 18 * s.params.halfCyc) →
      ∃ t, Sys2Proof.core.run j s = .next t ∧ t.regs.phase ≠ 0b000) ∧
    ∃ t, Sys2Proof.core.run (max s.params.tickCyc (1 + 18 * s.params.halfCyc)) s = .next t ∧ t.regs.phase = 0b000) ∧
  ∀ (p : Params) (x : Receiver) (l : List Bool) (k : Nat), p.legal = true →
    (State.boot p x l).quietFor (k * max p.tickCyc (1 + 18 * p.halfCyc)) →
    ∃ t, Sys2Proof.core.run (k * max p.tickCyc (1 + 18 * p.halfCyc)) (State.boot p x l) = .next t ∧ t.regs.phase = 0b000

/-- R84: the phases of one tick, cycle by cycle, are the expansion of `TICK`. -/
def Obligations.TickIsItsExpansion : Prop :=
  ∀ s : State, s.Inv → s.regs.phase = 0b000 → s.quietFor (s.params.interval - 1) →
    ∃ cycles, State.history (s.params.interval - 1) s = .next cycles ∧
      cycles.map State.phaseCycle = (tickOp s.params).map some

/-- R112: from row `u` of the table at an `ADV` cycle, `k` ticks later the machine is at an `ADV` cycle again, at row `u + k`
(mod `2N`), with that row's pattern loaded by the last tick. From reset, `u = 0`. -/
def Obligations.TicksFollowSequenceTable : Prop :=
  ∀ (s : State) (u k : Nat), s.Inv → s.regs.phase = 0b000 → u < 2 * s.params.n →
    (s.regs.pos, s.regs.dir) = chaserAt s.params.n u → s.quietFor (k * s.params.interval) →
    ∃ t, Sys2Proof.core.run (k * s.params.interval) s = .next t ∧ t.regs.phase = 0b000 ∧
      (t.regs.pos, t.regs.dir) = chaserAt s.params.n ((u + k) % (2 * s.params.n)) ∧
      (0 < k → t.regs.pat = patternAt s.params.n ((u + k) % (2 * s.params.n)))

/-- R148, on the flag: with `WORK = 1 + 18H`, `ovr` is 0 in every cycle of a run from reset when `WORK < T`; when `WORK ≥ T` it is 0 up
to cycle `WORK - 1` and 1 from cycle `WORK` on. (The sticky flag shows the first overrun only.) -/
def Obligations.OverrunDependsOnlyOnBuild : Prop :=
  ∀ (p : Params) (x : Receiver) (l : List Bool) (c : Nat), p.legal = true → (State.boot p x l).quietFor c →
    ∃ t, Sys2Proof.core.run c (State.boot p x l) = .next t ∧
      t.regs.ovr = decide (p.tickCyc ≤ 1 + 18 * p.halfCyc ∧ 1 + 18 * p.halfCyc ≤ c)
end

