-- ==== Sys2Proof/Laws/State.lean ====
section
/-! SUPPORT. One lemma per field per update of the state and of the registers, all true by unfolding. -/

namespace Sys2Proof.Machine

variable (s : State) (r : Regs) (p : Params) (x : Receiver) (l : List Bool) (f : Fault)

@[simp] theorem commit_params : (s.commit r).params = s.params := rfl
@[simp] theorem commit_regs : (s.commit r).regs = r := rfl
@[simp] theorem commit_rx : (s.commit r).rx = s.rx.react s.regs r := rfl
@[simp] theorem commit_rst : (s.commit r).rst = s.rst.tail := rfl
@[simp] theorem commit_faulted : (s.commit r).faulted = s.faulted := rfl

@[simp] theorem applyReset_params : s.applyReset.params = s.params := rfl
@[simp] theorem applyReset_regs : s.applyReset.regs = Regs.reset := rfl
@[simp] theorem applyReset_rst : s.applyReset.rst = s.rst.tail := rfl
@[simp] theorem applyReset_faulted : s.applyReset.faulted = none := rfl

@[simp] theorem enterFault_params : (s.enterFault f).params = s.params := rfl
@[simp] theorem enterFault_regs : (s.enterFault f).regs = s.regs := rfl
@[simp] theorem enterFault_rx : (s.enterFault f).rx = s.rx := rfl
@[simp] theorem enterFault_rst : (s.enterFault f).rst = s.rst.tail := rfl
@[simp] theorem enterFault_faulted : (s.enterFault f).faulted = some f := rfl

@[simp] theorem boot_params : (State.boot p x l).params = p := rfl
@[simp] theorem boot_regs : (State.boot p x l).regs = Regs.reset := rfl
@[simp] theorem boot_rx : (State.boot p x l).rx = x := rfl
@[simp] theorem boot_rst : (State.boot p x l).rst = l := rfl
@[simp] theorem boot_faulted : (State.boot p x l).faulted = none := rfl

@[simp] theorem reset_phase : Regs.reset.phase = Phase.adv := rfl
@[simp] theorem reset_pos : Regs.reset.pos = 0 := rfl
@[simp] theorem reset_dir : Regs.reset.dir = .asc := rfl
@[simp] theorem reset_pat : Regs.reset.pat = 0x00 := rfl
@[simp] theorem reset_bitidx : Regs.reset.bitidx = 0 := rfl
@[simp] theorem reset_hcnt : Regs.reset.hcnt = 0 := rfl
@[simp] theorem reset_tcnt : Regs.reset.tcnt = 0 := rfl
@[simp] theorem reset_ser : Regs.reset.ser = false := rfl
@[simp] theorem reset_sclk : Regs.reset.sclk = false := rfl
@[simp] theorem reset_lclk : Regs.reset.lclk = false := rfl
@[simp] theorem reset_ovr : Regs.reset.ovr = false := rfl

variable (pos' : Code) (dir' : Dir)

@[simp] theorem startFrame_phase : (startFrame p r pos' dir').phase = Phase.shLo := rfl
@[simp] theorem startFrame_pos : (startFrame p r pos' dir').pos = pos' := rfl
@[simp] theorem startFrame_dir : (startFrame p r pos' dir').dir = dir' := rfl
@[simp] theorem startFrame_pat : (startFrame p r pos' dir').pat = pattern p.n r.pos r.dir := rfl
@[simp] theorem startFrame_bitidx : (startFrame p r pos' dir').bitidx = 7 := rfl
@[simp] theorem startFrame_hcnt : (startFrame p r pos' dir').hcnt = 0 := rfl
@[simp] theorem startFrame_tcnt : (startFrame p r pos' dir').tcnt = r.tcnt + 1 := rfl
@[simp] theorem startFrame_ser :
    (startFrame p r pos' dir').ser = dataBit (pattern p.n r.pos r.dir) 7 := rfl
@[simp] theorem startFrame_sclk : (startFrame p r pos' dir').sclk = false := rfl
@[simp] theorem startFrame_lclk : (startFrame p r pos' dir').lclk = false := rfl
@[simp] theorem startFrame_ovr : (startFrame p r pos' dir').ovr = r.ovr := rfl

end Sys2Proof.Machine
end

