-- ==== Sys2Proof/Laws/Operands.lean ====
section
/-! SUPPORT. What the operand functions answer: the advance key read backwards, the guard inside and outside its range. -/

namespace Sys2Proof.Machine

/-- The key is its three fields: it equals a code exactly when the fields equal the code's bits. -/
theorem advKey_eq_iff (p : Params) (r : Regs) (lb ub d : Bool) :
    advKey p r = BitVec.ofBool lb ++ BitVec.ofBool ub ++ BitVec.ofBool d ↔
      atLower r = lb ∧ atUpper p r = ub ∧ r.dir.bit = d := by
  unfold advKey
  cases atLower r <;> cases atUpper p r <;> cases r.dir.bit <;> cases lb <;> cases ub <;> cases d <;> decide

@[simp] theorem atLower_iff (r : Regs) : atLower r = true ↔ r.pos.toNat = 0 := by simp [atLower]

@[simp] theorem atUpper_iff (p : Params) (r : Regs) : atUpper p r = true ↔ r.pos.toNat + 1 = p.n := by
  simp [atUpper]

theorem guardBit_inside {n : Nat} {a : Int} (h0 : 0 ≤ a) (h1 : a ≤ n - 1) : guardBit n a = oneBit a.toNat :=
  if_pos ⟨h0, h1⟩

theorem guardBit_below {n : Nat} {a : Int} (h : a < 0) : guardBit n a = 0x00 :=
  if_neg fun c => absurd c.1 (not_le.mpr h)

theorem guardBit_above {n : Nat} {a : Int} (h : (n : Int) ≤ a) : guardBit n a = 0x00 :=
  if_neg fun c => by omega

/-- A legal build is one that meets the four bounds of R9. -/
theorem legal_iff (p : Params) :
    p.legal = true ↔ 2 ≤ p.n ∧ p.n ≤ 8 ∧ 1 ≤ p.halfCyc ∧ 1 ≤ p.tickCyc := by
  simp [Params.legal, and_assoc]

end Sys2Proof.Machine
end

