-- ==== Sys2Proof/Laws/Ops.lean ====
section
/-! SUPPORT. For each shared operation, everything it can do, said once. -/

namespace Sys2Proof.Machine

@[simp] theorem rises_false (b : Bool) : rises b false = false := by simp [rises]
@[simp] theorem rises_self (b : Bool) : rises b b = false := by cases b <;> rfl
@[simp] theorem rises_from_high (b : Bool) : rises true b = false := rfl

/-- The receiver keeps what it holds across an edge that raises neither clock line. -/
theorem react_of_no_rise {x : Receiver} {r r' : Regs} (hs : rises r.sclk r'.sclk = false)
    (hl : rises r.lclk r'.lclk = false) : x.react r r' = x := by
  simp [Receiver.react, hs, hl]

@[simp] theorem react_startFrame (x : Receiver) (p : Params) (r : Regs) (pos' : Code) (dir' : Dir) :
    x.react r (startFrame p r pos' dir') = x :=
  react_of_no_rise (by simp) (by simp)

@[simp] theorem react_reset (x : Receiver) (r : Regs) : x.react r Regs.reset = x :=
  react_of_no_rise (by simp) (by simp)

theorem halfPeriod_more {p : Params} {r last : Regs} (h : r.hcnt + 1 < p.halfCyc) :
    halfPeriod p r last = { r with hcnt := r.hcnt + 1, tcnt := r.tcnt + 1 } := if_pos h

theorem halfPeriod_last {p : Params} {r last : Regs} (h : p.halfCyc ≤ r.hcnt + 1) :
    halfPeriod p r last = last := if_neg (by omega)

theorem endOfShiftPulse_nextBit {r : Regs} (h : 0 < r.bitidx.toNat) :
    endOfShiftPulse r = { r with
      hcnt := 0, sclk := false, bitidx := r.bitidx - 1, ser := dataBit r.pat (r.bitidx - 1), phase := Phase.shLo } :=
  if_pos h

theorem endOfShiftPulse_lastBit {r : Regs} (h : r.bitidx.toNat = 0) :
    endOfShiftPulse r = { r with hcnt := 0, sclk := false, lclk := true, phase := Phase.ltHi } :=
  if_neg (by omega)

theorem endOfFrame_overrun {p : Params} {r : Regs} (h : p.tickCyc ≤ r.tcnt + 1) :
    endOfFrame p r = { r with ovr := true, tcnt := 0, phase := Phase.adv } := by
  simp [endOfFrame, overran, ovrAfter, h]

theorem endOfFrame_inTime {p : Params} {r : Regs} (h : r.tcnt + 1 < p.tickCyc) :
    endOfFrame p r = { r with tcnt := r.tcnt + 1, phase := Phase.wait } := by
  have h' : ¬ p.tickCyc ≤ r.tcnt + 1 := by omega
  simp [endOfFrame, overran, ovrAfter, h']

/-- What an advance case does when it does something. -/
theorem advanceAs_next {key : Code} {s t : State} {pos' : Code} {dir' : Dir}
    (h : advanceAs key s pos' dir' = .next t) :
    s.regs.pos.toNat < s.params.n ∧ advKey s.params s.regs = key ∧
      t = s.commit (startFrame s.params s.regs pos' dir') := by
  unfold advanceAs at h
  split at h
  · next c => exact ⟨c.1, c.2, by injection h with h; exact h.symm⟩
  · cases h

theorem advanceAs_selected {key : Code} {s : State} {pos' : Code} {dir' : Dir}
    (hp : s.regs.pos.toNat < s.params.n) (hk : advKey s.params s.regs = key) :
    advanceAs key s pos' dir' = .next (s.commit (startFrame s.params s.regs pos' dir')) :=
  if_pos ⟨hp, hk⟩

theorem faultCheck_none {s : State} :
    faultCheck s = none ↔
      s.faulted = none ∧ s.regs.pos.toNat < s.params.n ∧ s.regs.hcnt < s.params.halfCyc := by
  unfold faultCheck
  cases s.faulted with
  | some f => simp
  | none => split_ifs <;> simp <;> omega

end Sys2Proof.Machine
end

