-- ==== Sys2Proof/Laws/PerInstr.lean ====
section
/-! SUPPORT. The per-instruction family EncodeDecode: an operation's code decodes, in its own selector, to the operation. -/

namespace Sys2Proof.Laws

/-- The operation is well formed in its own selector, its code is none of the two reserved ones, and that code decodes to the
operation there (30_encoding.md R70, R79). -/
def EncodeDecode.Statement (i : Instr) : Prop :=
  i.wellFormed i.format = true ∧ (encode i).toNat < 6 ∧ decode i.format (encode i) = .ok i

theorem EncodeDecode.adv : EncodeDecode.Statement .adv := ⟨rfl, by decide, rfl⟩
theorem EncodeDecode.shLo : EncodeDecode.Statement .shLo := ⟨rfl, by decide, rfl⟩
theorem EncodeDecode.shHi : EncodeDecode.Statement .shHi := ⟨rfl, by decide, rfl⟩
theorem EncodeDecode.ltHi : EncodeDecode.Statement .ltHi := ⟨rfl, by decide, rfl⟩
theorem EncodeDecode.ltLo : EncodeDecode.Statement .ltLo := ⟨rfl, by decide, rfl⟩
theorem EncodeDecode.wait : EncodeDecode.Statement .wait := ⟨rfl, by decide, rfl⟩
theorem EncodeDecode.advIntUp : EncodeDecode.Statement .advIntUp := ⟨rfl, by decide, rfl⟩
theorem EncodeDecode.advIntDn : EncodeDecode.Statement .advIntDn := ⟨rfl, by decide, rfl⟩
theorem EncodeDecode.advUbRev : EncodeDecode.Statement .advUbRev := ⟨rfl, by decide, rfl⟩
theorem EncodeDecode.advUbBack : EncodeDecode.Statement .advUbBack := ⟨rfl, by decide, rfl⟩
theorem EncodeDecode.advLbFwd : EncodeDecode.Statement .advLbFwd := ⟨rfl, by decide, rfl⟩
theorem EncodeDecode.advLbRev : EncodeDecode.Statement .advLbRev := ⟨rfl, by decide, rfl⟩

end Sys2Proof.Laws
end

