-- ==== Sys2Proof/Laws/Step.lean ====
section
/-! SUPPORT. What a step can do: the event of a cycle, the operation it runs, and what an operation that completes has done. -/

namespace Sys2Proof.Machine

/-- Everything a step that answers a next state can have been: a reset, or the decoded operation run in a state that passes
the checks. -/
theorem step_next {s t : State} (h : step s = .next t) :
    s.params.legal = true ∧
      ((s.rstNow = true ∧ t = s.applyReset) ∨
       (s.rstNow = false ∧ s.faulted = none ∧ s.regs.pos.toNat < s.params.n ∧ s.regs.hcnt < s.params.halfCyc ∧
         ∃ i, decodePhase s.regs.phase = .ok i ∧ exec i s = .next t)) := by
  unfold step State.event at h
  by_cases hl : s.params.legal = true
  · by_cases hr : s.rstNow = true
    · simp only [hl, hr, if_true] at h
      injection h with h
      exact ⟨hl, .inl ⟨hr, h.symm⟩⟩
    · simp only [hl, hr, if_true] at h
      cases hf : faultCheck s with
      | some f => simp [hf] at h
      | none =>
        obtain ⟨h1, h2, h3⟩ := faultCheck_none.mp hf
        cases hd : decodePhase s.regs.phase with
        | error e => simp [hf, hd] at h
        | ok i =>
          simp only [hf, hd] at h
          exact ⟨hl, .inr ⟨by simpa using hr, h1, h2, h3, i, rfl, h⟩⟩
  · simp [hl] at h

/-- An advance case completes only as a clock edge that starts a frame, and a phase operation is no case. -/
theorem runAdvanceCase_next {i : Instr} {s t : State} (h : runAdvanceCase i s = .next t) :
    s.regs.pos.toNat < s.params.n ∧ i.format = .advKey ∧ advKey s.params s.regs = encode i ∧
      ∃ pos' dir', t = s.commit (startFrame s.params s.regs pos' dir') := by
  cases i with
  | adv | shLo | shHi | ltHi | ltLo | wait => simp [runAdvanceCase] at h
  | advIntUp | advIntDn | advUbRev | advUbBack | advLbFwd | advLbRev =>
    obtain ⟨h1, h2, h3⟩ := advanceAs_next h
    exact ⟨h1, rfl, h2, _, _, h3⟩

/-- What `ADV` has done when it completes: the case its key selects (R85). -/
theorem execAdv_next {s t : State} (h : execAdv s = .next t) :
    ∃ i, decodeAdvKey (advKey s.params s.regs) = .ok i ∧ runAdvanceCase i s = .next t := by
  unfold execAdv at h
  cases hd : decodeAdvKey (advKey s.params s.regs) with
  | error e => simp [hd] at h
  | ok i => exact ⟨i, rfl, by simpa [hd] using h⟩

/-- Every operation that completes is one clock edge. -/
theorem exec_next {i : Instr} {s t : State} (h : exec i s = .next t) : ∃ r, t = s.commit r := by
  cases i with
  | adv =>
    obtain ⟨_, _, h⟩ := execAdv_next h
    obtain ⟨_, _, _, _, _, h⟩ := runAdvanceCase_next h
    exact ⟨_, h⟩
  | advIntUp => exact ⟨_, (advanceAs_next h).2.2⟩
  | advIntDn => exact ⟨_, (advanceAs_next h).2.2⟩
  | advUbRev => exact ⟨_, (advanceAs_next h).2.2⟩
  | advUbBack => exact ⟨_, (advanceAs_next h).2.2⟩
  | advLbFwd => exact ⟨_, (advanceAs_next h).2.2⟩
  | advLbRev => exact ⟨_, (advanceAs_next h).2.2⟩
  | shLo => injection h with h; exact ⟨_, h.symm⟩
  | shHi => injection h with h; exact ⟨_, h.symm⟩
  | ltHi => injection h with h; exact ⟨_, h.symm⟩
  | ltLo => injection h with h; exact ⟨_, h.symm⟩
  | wait => injection h with h; exact ⟨_, h.symm⟩

/-- Which phase code decodes to which operation, read backwards. -/
theorem decodePhase_ok {c : Code} {i : Instr} (h : decodePhase c = .ok i) :
    (c = Phase.adv ∧ i = .adv) ∨ (c = Phase.shLo ∧ i = .shLo) ∨ (c = Phase.shHi ∧ i = .shHi) ∨
      (c = Phase.ltHi ∧ i = .ltHi) ∨ (c = Phase.ltLo ∧ i = .ltLo) ∨ (c = Phase.wait ∧ i = .wait) := by
  have table : ∀ c : Code, (match decodePhase c with
      | .ok i => decide (i.format = .phase ∧ encode i = c)
      | .error _ => true) = true := by decide
  have hc := table c
  rw [h] at hc
  cases i <;> simp_all [Instr.format, encode]

/-- Which advance key decodes to which case, read backwards. -/
theorem decodeAdvKey_ok {c : Code} {i : Instr} (h : decodeAdvKey c = .ok i) :
    (c = AdvKey.intUp ∧ i = .advIntUp) ∨ (c = AdvKey.intDn ∧ i = .advIntDn) ∨ (c = AdvKey.ubRev ∧ i = .advUbRev) ∨
      (c = AdvKey.ubBack ∧ i = .advUbBack) ∨ (c = AdvKey.lbFwd ∧ i = .advLbFwd) ∨ (c = AdvKey.lbRev ∧ i = .advLbRev) := by
  have table : ∀ c : Code, (match decodeAdvKey c with
      | .ok i => decide (i.format = .advKey ∧ encode i = c)
      | .error _ => true) = true := by decide
  have hc := table c
  rw [h] at hc
  cases i <;> simp_all [Instr.format, encode]

end Sys2Proof.Machine
end

