-- ==== Sys2Proof/Laws/Scenario.lean ====
section
/-! SUPPORT. What the next cycle and a history can be, said once. -/

namespace Sys2Proof.Machine

@[simp] theorem andThen_next {α β : Type} (a : α) (f : α → Host.Outcome β Fault Refusal) :
    andThen (.next a) f = f a := rfl

@[simp] theorem andThen_refused {α β : Type} (r : Refusal) (f : α → Host.Outcome β Fault Refusal) :
    andThen (.refused r) f = .refused r := rfl

/-- What it takes for a sequence to answer a next value: both parts do. -/
theorem andThen_eq_next {α β : Type} {o : Host.Outcome α Fault Refusal} {f : α → Host.Outcome β Fault Refusal} {b : β}
    (h : andThen o f = .next b) : ∃ a, o = .next a ∧ f a = .next b := by
  cases o with
  | next a => exact ⟨a, rfl, h⟩
  | fault e => cases h
  | refused r => cases h

theorem nextCycle_of_next {s t : State} (h : step s = .next t) : s.nextCycle = .next t := by
  simp [State.nextCycle, h]

theorem nextCycle_of_fault {s : State} {f : Fault} (h : step s = .fault f) : s.nextCycle = .next (s.enterFault f) := by
  simp [State.nextCycle, h]

theorem nextCycle_of_refused {s : State} {r : Refusal} (h : step s = .refused r) : s.nextCycle = .refused r := by
  simp [State.nextCycle, h]

/-- A history that goes on is this state before the history of the next cycle. -/
theorem history_succ {k : Nat} {s t : State} {l : List State} (h : s.nextCycle = .next t)
    (hl : State.history k t = .next l) : State.history (k + 1) s = .next (s :: l) := by
  simp [State.history, h, hl]

/-- A history of `k` cycles has `k + 1` states. -/
theorem history_length {k : Nat} {s : State} {l : List State} (h : State.history k s = .next l) :
    l.length = k + 1 := by
  induction k generalizing s l with
  | zero =>
    unfold State.history at h
    split at h
    · injection h with h
      simp [← h]
    · cases h
  | succ k ih =>
    obtain ⟨t, -, h⟩ := andThen_eq_next h
    obtain ⟨later, hl, h⟩ := andThen_eq_next h
    injection h with h
    simp [← h, ih hl]

end Sys2Proof.Machine
end

