-- ==== Sys2Proof/Tests/Slice0.lean ====
section
/-! SUPPORT. Tests: the checks refuse ill-formed terms, the codes written from the spec's tables, single steps whose results stand in
95_test_vectors.md or in a rule's own example, and for every statement with hypotheses a witness that meets them. -/

namespace Sys2Proof.Tests

open Sys2Proof.Machine

/-! ### Helpers -/

/-- A build with `CYC_PER_US = 1`. -/
def build (n h t : Nat) : Params := ⟨n, h, t, 1⟩

/-- A state with `rst = 0` from here on and a receiver holding `S = 0x0C`, `Q = 0x03` (program P4, cycle 31). -/
def st (p : Params) (r : Regs) : State := ⟨p, r, ⟨0x0C, 0x03⟩, [], none⟩

/-- The reset registers with another chaser state. -/
def chaser (pos : Code) (d : Dir) : Regs := { Regs.reset with pos := pos, dir := d }

/-- A frame or wait state inside the invariants: tick 1 of a build, pattern 0x03 (traces P1 and D2). -/
def inTick (phase bitidx : Code) (hcnt tcnt : Nat) (ser sclk lclk : Bool) : Regs :=
  ⟨phase, 1, .asc, 0x03, bitidx, hcnt, tcnt, ser, sclk, lclk, false⟩

def nextOf : Host.Outcome State Fault Refusal → Option State
  | .next t => some t
  | .fault _ => none
  | .refused _ => none

def faultOf : Host.Outcome State Fault Refusal → Option Fault
  | .next _ => none
  | .fault f => some f
  | .refused _ => none

def refusalOf : Host.Outcome State Fault Refusal → Option Refusal
  | .next _ => none
  | .fault _ => none
  | .refused r => some r

/-- The step answers a next state. -/
def steps (s : State) : Bool := (nextOf (step s)).isSome

theorem steps_spec {s : State} (h : steps s = true) : ∃ t, step s = .next t := by
  unfold steps at h
  cases hs : step s with
  | next t => exact ⟨t, rfl⟩
  | fault f => simp [hs, nextOf] at h
  | refused r => simp [hs, nextOf] at h

/-! ### WellFormed: an ill-formed term for each check -/

theorem test_wellFormed_case_is_no_phase : Instr.advLbRev.wellFormed .phase = false := by decide
theorem test_wellFormed_phase_is_no_case : Instr.ltLo.wellFormed .advKey = false := by decide
theorem test_legal_refuses_one_light : (build 1 1 25).legal = false := by decide
theorem test_legal_refuses_nine_lights : (build 9 1 25).legal = false := by decide
theorem test_legal_refuses_no_half_period : (build 6 0 25).legal = false := by decide
theorem test_legal_refuses_no_tick : (build 6 1 0).legal = false := by decide

/-! ### Decoding: the codes of R70 and R79, written out from the tables -/

theorem test_decode_ADV : decodePhase 0b000 = .ok .adv := by decide
theorem test_decode_SH_LO : decodePhase 0b001 = .ok .shLo := by decide
theorem test_decode_SH_HI : decodePhase 0b010 = .ok .shHi := by decide
theorem test_decode_LT_HI : decodePhase 0b011 = .ok .ltHi := by decide
theorem test_decode_LT_LO : decodePhase 0b100 = .ok .ltLo := by decide
theorem test_decode_WAIT : decodePhase 0b101 = .ok .wait := by decide
theorem test_decode_ADV_INT_UP : decodeAdvKey 0b000 = .ok .advIntUp := by decide
theorem test_decode_ADV_INT_DN : decodeAdvKey 0b001 = .ok .advIntDn := by decide
theorem test_decode_ADV_UB_REV : decodeAdvKey 0b010 = .ok .advUbRev := by decide
theorem test_decode_ADV_UB_BACK : decodeAdvKey 0b011 = .ok .advUbBack := by decide
theorem test_decode_ADV_LB_FWD : decodeAdvKey 0b100 = .ok .advLbFwd := by decide
theorem test_decode_ADV_LB_REV : decodeAdvKey 0b101 = .ok .advLbRev := by decide
theorem test_decode_reserved_phase : decodePhase 0b110 = .error .reservedPhase := by decide
theorem test_decode_reserved_key : decodeAdvKey 0b111 = .error .reservedAdvanceKey := by decide
theorem test_decodeWord_too_wide : decodeWord .phase 8 = .error .widerThanThreeBits := by decide
theorem test_table_word_LT_HI : decodeTableWord 8 3 = some .ltHi := by decide

/-- The fetch reads the code `withFetchWord` placed: SH_LO with H = 1 raises the shift clock in the first step after reset. -/
theorem test_fetch_first_step :
    (nextOf (step (State.reset.withFetchWord 8 1))).map (fun t => (t.regs.phase, t.regs.sclk)) = some (0b010, true) := by
  decide

/-! ### The sequencer: vectors A1 to A4, S2 -/

/-- What an advance leaves: position, direction, pattern, data line. -/
def advanced (i : Instr) (s : State) : Option (Code × Dir × Byte × Bool) :=
  (nextOf (exec i s)).map fun t => (t.regs.pos, t.regs.dir, t.regs.pat, t.regs.ser)

/-- A1, the reset state: (0, Asc) with N = 6 loads 0x03, the pattern of the state before the move (C1). -/
theorem test_ADV_from_reset : advanced .adv (st (build 6 1 25) Regs.reset) = some (1, .asc, 0x03, false) := by decide
/-- A6: the other effects of `ADV`. -/
theorem test_ADV_other_effects :
    (nextOf (exec .adv (st (build 6 1 25) Regs.reset))).map
      (fun t => (t.regs.bitidx, t.regs.hcnt, t.regs.tcnt, t.regs.phase)) = some (7, 0, 1, 0b001) := by decide
theorem test_ADV_LB_REV : advanced .advLbRev (st (build 6 1 25) (chaser 0 .desc)) = some (0, .asc, 0x01, false) := by decide
/-- A2, N = 2. -/
theorem test_ADV_LB_FWD_two_lights : advanced .advLbFwd (st (build 2 1 25) (chaser 0 .asc)) = some (1, .asc, 0x03, false) := by
  decide
/-- A3, N = 7: 0x40, not 0xC0. -/
theorem test_ADV_UB_REV_guards_bit_seven :
    advanced .advUbRev (st (build 7 1 25) (chaser 6 .asc)) = some (6, .desc, 0x40, false) := by decide
/-- A4, N = 8: bit 7 is the first data bit. -/
theorem test_ADV_UB_REV_full_width :
    advanced .advUbRev (st (build 8 1 25) (chaser 7 .asc)) = some (7, .desc, 0x80, true) := by decide
theorem test_ADV_UB_BACK : advanced .advUbBack (st (build 6 1 25) (chaser 5 .desc)) = some (4, .desc, 0x30, false) := by decide
/-- A4, N = 8: the move may land on the upper bound. -/
theorem test_ADV_INT_UP_onto_bound :
    advanced .advIntUp (st (build 8 1 25) (chaser 6 .asc)) = some (7, .asc, 0xC0, true) := by decide
theorem test_ADV_INT_DN : advanced .advIntDn (st (build 6 1 25) (chaser 3 .desc)) = some (2, .desc, 0x0C, false) := by decide
theorem test_case_not_selected :
    refusalOf (exec .advIntUp (st (build 6 1 25) (chaser 5 .asc))) = some .caseNotSelected := by decide

/-! ### The driver and the scheduler: the rules' examples, vectors D1, D3, K13 to K16 -/

/-- R120: `SH_LO b5 .h1`, H = 2, tcnt = 10 gives `SH_HI b5 .h0`, sclk = 1, tcnt = 11. -/
theorem test_SH_LO_last_cycle :
    (nextOf (exec .shLo (st (build 6 2 40) (inTick 0b001 5 1 10 false false false)))).map (·.regs)
      = some (inTick 0b010 5 0 11 false true false) := by decide
/-- P4, cycles 32 and 33: the receiver shifts a 0 into 0x0C. -/
theorem test_SH_LO_edge_shifts :
    (nextOf (exec .shLo (st (build 6 1 25) (inTick 0b001 7 0 1 false false false)))).map (·.rx)
      = some ⟨0x18, 0x03⟩ := by decide
/-- R123, vector D3: `SH_HI b3 .h1` with H = 2 and pat = 0xA5 gives `SH_LO b2 .h0`, ser = pat[2] = 1. -/
theorem test_SH_HI_next_bit :
    (nextOf (exec .shHi (st (build 6 2 40) { inTick 0b010 3 1 20 false true false with pat := 0xA5 }))).map
      (fun t => (t.regs.phase, t.regs.bitidx, t.regs.hcnt, t.regs.ser, t.regs.sclk)) = some (0b001, 2, 0, true, false) := by
  decide
/-- D1, c0+16 to c0+17: after bit 0 the latch rises and the outputs copy the chain. -/
theorem test_SH_HI_last_bit_latches :
    (nextOf (exec .shHi (st (build 6 1 25) (inTick 0b010 0 0 16 true true false)))).map
      (fun t => (t.regs.phase, t.regs.lclk, t.rx.out)) = some (0b011, true, 0x0C) := by decide
/-- R124: `LT_HI .h1`, H = 2, tcnt = 34 gives `LT_LO .h0`, lclk = 0, tcnt = 35. -/
theorem test_LT_HI_last_cycle :
    (nextOf (exec .ltHi (st (build 6 2 40) (inTick 0b011 0 1 34 true false true)))).map (·.regs)
      = some (inTick 0b100 0 0 35 true false false) := by decide
/-- K13. -/
theorem test_LT_LO_in_time :
    (nextOf (exec .ltLo (st (build 6 1 25) (inTick 0b100 0 0 18 true false false)))).map
      (fun t => (t.regs.phase, t.regs.tcnt, t.regs.ovr)) = some (0b101, 19, false) := by decide
/-- K14: WORK = T is an overrun. -/
theorem test_LT_LO_overrun :
    (nextOf (exec .ltLo (st (build 6 1 19) (inTick 0b100 0 0 18 true false false)))).map
      (fun t => (t.regs.phase, t.regs.tcnt, t.regs.ovr)) = some (0b000, 0, true) := by decide
/-- K15. -/
theorem test_WAIT_goes_on :
    (nextOf (exec .wait (st (build 6 1 25) (inTick 0b101 0 0 23 true false false)))).map
      (fun t => (t.regs.phase, t.regs.tcnt)) = some (0b101, 24) := by decide
/-- K16. -/
theorem test_WAIT_ends :
    (nextOf (exec .wait (st (build 6 1 25) (inTick 0b101 0 0 24 true false false)))).map
      (fun t => (t.regs.phase, t.regs.tcnt)) = some (0b000, 0) := by decide

/-! ### Faults, refusals and reset: vectors F1 to F10, R1 to R3 -/

theorem test_F1 : faultOf (step (st (build 6 1 25) { Regs.reset with phase := 0b110 })) = some .reservedPhase := by decide
theorem test_F3 : faultOf (step (st (build 6 1 25) (chaser 6 .asc))) = some .posOutOfRange := by decide
theorem test_F4 :
    faultOf (step (st (build 6 1 25) { Regs.reset with phase := 0b001, hcnt := 1 })) = some .hcntOutOfRange := by decide
theorem test_F5 :
    faultOf (step (st (build 6 1 25) { Regs.reset with phase := 0b111, pos := 7 })) = some .posOutOfRange := by decide
theorem test_F6 :
    faultOf (step (st (build 6 1 25) { Regs.reset with phase := 0b110, hcnt := 1 })) = some .hcntOutOfRange := by decide
theorem test_F7 :
    (nextOf (step { st (build 6 1 25) { Regs.reset with phase := 0b111 } with rst := [true] })).map (·.regs)
      = some Regs.reset := by decide
theorem test_F8 : refusalOf (step (st (build 1 1 25) Regs.reset)) = some .illegalParams := by decide
theorem test_F9 : refusalOf (step (st (build 9 1 25) Regs.reset)) = some .illegalParams := by decide
theorem test_F10 : refusalOf (step (st (build 6 1 0) Regs.reset)) = some .illegalParams := by decide
/-- P4, cycles 30 and 31: reset cuts the frame, the receiver keeps 0x0C and 0x03. -/
theorem test_reset_in_frame :
    (nextOf (step { st (build 6 1 25) (inTick 0b001 5 0 5 false false false) with rst := [true] })).map
      (fun t => (t.regs, t.rx)) = some (Regs.reset, ⟨0x0C, 0x03⟩) := by decide
theorem test_reserved_key_fault : faultOf (exec .adv (st (build 1 1 25) Regs.reset)) = some .reservedAdvanceKey := by decide
/-- R84: with H = 1 a frame is 18 cycles long. -/
theorem test_frame_length : (frameOp (build 6 1 25)).length = 18 := by decide
/-- R9: no machine is constructed for an illegal build, even for a scenario that runs no cycle. -/
theorem test_scenario_refused :
    refusalOf ((⟨build 1 1 25, [], 0⟩ : Scenario).result ⟨0, 0⟩) = some .illegalParams := by decide
/-- R9, F8: an illegal build has no pin trace either, not even of cycle 0. -/
theorem test_pin_trace_refused :
    (match (⟨build 1 1 25, [], 2⟩ : Scenario).pinTrace ⟨0, 0⟩ with
      | .refused r => some r
      | _ => none) = some .illegalParams := by decide
/-- Trace P1, cycles 0 to 2: the shift clock rises in cycle 2. -/
theorem test_pin_trace_first_cycles :
    (match (⟨build 6 1 25, [], 2⟩ : Scenario).pinTrace ⟨0, 0⟩ with
      | .next l => some (l.map (·.sclkO))
      | _ => none) = some [false, false, true] := by decide
/-- R86: the start state of a scenario with a reset at the end of cycle 1. -/
theorem test_scenario_start :
    (nextOf ((⟨build 6 1 25, [1], 3⟩ : Scenario).start ⟨0, 0⟩)).map (·.rst) = some [false, true, false] := by decide

/-! ### Witnesses: a state that meets the hypotheses of each statement that has some -/

/-- One state of every phase inside the invariants, H = 2, T = 40 (trace D2: cycles 0, 2, 4, 34, 36, 39). -/
def sampleTick : List State :=
  [st (build 6 2 40) Regs.reset,
   st (build 6 2 40) (inTick 0b001 7 1 2 false false false),
   st (build 6 2 40) (inTick 0b010 7 1 4 false true false),
   st (build 6 2 40) (inTick 0b010 0 1 32 true true false),
   st (build 6 2 40) (inTick 0b011 0 1 34 true false true),
   st (build 6 2 40) (inTick 0b100 0 1 36 true false false),
   st (build 6 2 40) (inTick 0b101 0 0 39 true false false)]

/-- The other branch of each phase: a half-period or a wait that goes on, and the end of an overrun frame (T = 37). -/
def sampleOther : List State :=
  [st (build 6 2 40) (inTick 0b001 7 0 1 false false false),
   st (build 6 2 40) (inTick 0b010 7 0 3 false true false),
   st (build 6 2 40) (inTick 0b011 0 0 33 true false true),
   st (build 6 2 40) (inTick 0b100 0 0 35 true false false),
   st (build 6 2 37) (inTick 0b100 0 1 36 true false false),
   st (build 6 2 40) (inTick 0b101 0 0 37 true false false)]

theorem witness_invariants_every_phase :
    ∀ s ∈ sampleTick ++ sampleOther, s.Inv ∧ s.rstNow = false ∧ steps s = true := by decide

theorem witness_phases_of_samples :
    sampleTick.map (·.regs.phase) = [0b000, 0b001, 0b010, 0b010, 0b011, 0b100, 0b101] ∧
    sampleOther.map (·.regs.phase) = [0b001, 0b010, 0b011, 0b100, 0b100, 0b101] := by decide

/-- PhaseOrder, ChaserWrittenOnlyByAdvance, OverrunFlagIsSticky, OverrunFlagAffectsNothingElse, ReceiverNeverReachesBlock,
TickCounterCounts, ReceiverFollowsTheLines, BuildNeverChanges, StepKeepsInvariants, InvariantStatesNeverStop,
CountersFitTheirWidths: every sample state meets the hypotheses. -/
theorem witness_steps : ∀ s ∈ sampleTick ++ sampleOther, s.Inv ∧ s.rstNow = false ∧ ∃ t, step s = .next t := by
  intro s h
  obtain ⟨h1, h2, h3⟩ := witness_invariants_every_phase s h
  exact ⟨h1, h2, steps_spec h3⟩

theorem witness_StepRunsSelectedOperation :
    ∀ s ∈ sampleTick ++ sampleOther, s.params.legal = true ∧ s.faulted = none := by decide

theorem witness_StepIsExecOfDecoded :
    let s := st (build 6 2 40) (inTick 0b100 0 1 36 true false false)
    s.params.legal = true ∧ s.rstNow = false ∧ s.faulted = none ∧ s.regs.pos.toNat < s.params.n ∧
      s.regs.hcnt < s.params.halfCyc ∧ decode .phase s.regs.phase = .ok .ltLo := by decide

/-- IllegalBuildRefused: each of its four conditions, with a state and a scenario of the build. -/
theorem witness_IllegalBuildRefused :
    ((build 1 1 25).n < 2 ∧ (build 9 1 25).n > 8 ∧ (build 6 0 25).halfCyc < 1 ∧ (build 6 1 0).tickCyc < 1) ∧
      (st (build 1 1 25) Regs.reset).params = build 1 1 25 ∧
      (⟨build 1 1 25, [], 2⟩ : Scenario).params = build 1 1 25 := by decide

theorem witness_LegalBuildNeverRefused : (st (build 2 1 1) Regs.reset).params.legal = true := by decide

/-- StepFaultsExactlyAsListed: each of its three conditions, and a state with none. -/
theorem witness_StepFaultsExactlyAsListed :
    (∀ s ∈ [st (build 6 1 25) (chaser 6 .asc), st (build 6 1 25) { Regs.reset with hcnt := 1 },
        st (build 6 1 25) { Regs.reset with phase := 0b111 }, st (build 6 1 25) Regs.reset],
      s.params.legal = true ∧ s.faulted = none) ∧
    faultOf (step (st (build 6 1 25) { Regs.reset with hcnt := 1 })) = some .hcntOutOfRange ∧
    faultOf (step (st (build 6 1 25) { Regs.reset with phase := 0b111 })) = some .reservedPhase := by decide

theorem witness_FaultStateKeepsItsReason :
    (st (build 6 1 25) (chaser 6 .asc)).params.legal = true ∧
      ((st (build 6 1 25) (chaser 6 .asc)).enterFault .posOutOfRange).rstNow = false := by decide

theorem witness_ResetLeavesFaultState :
    let s := { st (build 6 1 25) (chaser 6 .asc) with faulted := some .posOutOfRange, rst := [true] }
    s.params.legal = true ∧ s.faulted = some .posOutOfRange ∧ s.rstNow = true := by decide

/-- ResetTakesEveryRegister (both clauses) and ResetReachesNoReceiver: reset in a shift pulse, and cycle 0. -/
theorem witness_ResetTakesEveryRegister :
    let s := { st (build 6 2 40) (inTick 0b010 7 0 3 false true false) with rst := [true] }
    (s.params.legal = true ∧ s.rstNow = true) ∧
      (State.reset.params.legal = true ∧ State.reset.rstNow = false ∧ State.reset.faulted = none ∧
        State.reset.regs = Regs.reset) := by decide

theorem witness_AdvLbRevReversesAtZero :
    let s := st (build 2 1 25) (chaser 0 .desc)
    s.params.legal = true ∧ s.regs.pos = 0 ∧ s.regs.dir = .desc ∧
      ∃ u : State, u.params = s.params ∧ u.regs.pos = 0 ∧ u.regs.dir = .asc :=
  ⟨by decide, rfl, rfl, st (build 2 1 25) (chaser 0 .asc), rfl, rfl, rfl⟩

theorem witness_AdvLbFwdLeavesZero :
    let s := st (build 2 1 25) (chaser 0 .asc)
    s.params.legal = true ∧ s.regs.pos = 0 ∧ s.regs.dir = .asc := by decide

/-- AdvUbRevReversesAtTop at both ends of the range of `N`. -/
theorem witness_AdvUbRevReversesAtTop :
    ∀ s ∈ [st (build 2 1 25) (chaser 1 .asc), st (build 8 1 25) (chaser 7 .asc)],
      s.params.legal = true ∧ s.regs.pos.toNat = s.params.n - 1 ∧ s.regs.dir = .asc := by decide

theorem witness_AdvUbBackLeavesTop :
    ∀ s ∈ [st (build 2 1 25) (chaser 1 .desc), st (build 8 1 25) (chaser 7 .desc)],
      s.params.legal = true ∧ s.regs.pos.toNat = s.params.n - 1 ∧ s.regs.dir = .desc := by decide

theorem witness_AdvIntUpMovesUp :
    ∀ s ∈ [st (build 3 1 25) (chaser 1 .asc), st (build 8 1 25) (chaser 6 .asc)],
      s.params.legal = true ∧ 0 < s.regs.pos.toNat ∧ s.regs.pos.toNat < s.params.n - 1 ∧ s.regs.dir = .asc := by decide

theorem witness_AdvIntDnMovesDown :
    ∀ s ∈ [st (build 3 1 25) (chaser 1 .desc), st (build 8 1 25) (chaser 6 .desc)],
      s.params.legal = true ∧ 0 < s.regs.pos.toNat ∧ s.regs.pos.toNat < s.params.n - 1 ∧ s.regs.dir = .desc := by decide

/-- AdvLoadsPatternOfOldState, PatternIsTrailAfterMove, PatternShape, GuardActsOnlyAtReversals: a position in range, at each bound
and inside. -/
theorem witness_positions_in_range :
    ∀ s ∈ [st (build 8 1 25) (chaser 0 .desc), st (build 8 1 25) (chaser 7 .asc), st (build 8 1 25) (chaser 3 .asc)],
      s.params.legal = true ∧ s.regs.pos.toNat < s.params.n := by decide

/-- AdvanceFrame: `ADV` and each case completes somewhere. -/
theorem witness_AdvanceFrame :
    ∀ c ∈ [(Instr.adv, st (build 6 1 25) (chaser 2 .asc)), (.advLbRev, st (build 6 1 25) (chaser 0 .desc)),
        (.advLbFwd, st (build 6 1 25) (chaser 0 .asc)), (.advUbRev, st (build 6 1 25) (chaser 5 .asc)),
        (.advUbBack, st (build 6 1 25) (chaser 5 .desc)), (.advIntUp, st (build 6 1 25) (chaser 2 .asc)),
        (.advIntDn, st (build 6 1 25) (chaser 2 .desc))],
      (c.1 = .adv ∨ c.1.format = .advKey) ∧ (nextOf (exec c.1 c.2)).isSome = true := by decide

theorem witness_BothBoundsFault :
    (st (build 1 1 25) Regs.reset).params.n = 1 ∧ (st (build 1 1 25) Regs.reset).regs.pos = 0 := by decide

/-- CaseOutsideItsOperandsRefused: another key, and a position out of range. -/
theorem witness_CaseOutsideItsOperandsRefused :
    Instr.advIntUp.format = .advKey ∧
      advKey (build 6 1 25) (chaser 5 .asc) ≠ encode .advIntUp ∧
      (build 6 1 25).n ≤ (chaser 6 .asc).pos.toNat := by decide

/-- GuardMasksLikeClamp, with the last clause's index `N` both inside and outside the width. -/
theorem witness_GuardMasksLikeClamp :
    ((2 : Nat) ≤ 7 ∧ (7 : Nat) ≤ 8 ∧ (6 : Code).toNat < 7 ∧ (6 : Code).toNat = 7 - 1) ∧
      ((7 : Code).toNat < 8 ∧ (7 : Code).toNat = 8 - 1) := by decide

/-- AdvanceFollowsSequenceTable at the rows where its cases meet: 0, N-1, N, 2N-1. -/
theorem witness_AdvanceFollowsSequenceTable :
    ∀ c ∈ [(st (build 6 1 25) (chaser 0 .asc), 0), (st (build 6 1 25) (chaser 5 .asc), 5),
        (st (build 6 1 25) (chaser 5 .desc), 6), (st (build 6 1 25) (chaser 0 .desc), 11)],
      c.1.params.legal = true ∧ c.2 < 2 * c.1.params.n ∧ (c.1.regs.pos, c.1.regs.dir) = chaserAt c.1.params.n c.2 := by
  decide

/-- FramePhasesFrame: each of the five phases completes. -/
theorem witness_FramePhasesFrame :
    ∀ i ∈ [Instr.shLo, .shHi, .ltHi, .ltLo, .wait],
      i.format = .phase ∧ i ≠ .adv ∧ (nextOf (exec i (st (build 6 1 25) Regs.reset))).isSome = true := by decide

/-- OverrunFlagIsSticky's reset clause. -/
theorem witness_OverrunFlagIsSticky_reset :
    let s := { st (build 6 1 19) { Regs.reset with ovr := true } with rst := [true] }
    s.rstNow = true ∧ steps s = true := by decide

/-- EdgesOnlyInsideFrames: the step into `SH_HI` raises the shift clock, the step into `LT_HI` the latch clock. -/
theorem witness_EdgesOnlyInsideFrames :
    ∀ c ∈ [(inTick 0b001 7 1 2 false false false, true, false), (inTick 0b010 0 1 32 true true false, false, true)],
      (st (build 6 2 40) c.1).Inv ∧ (st (build 6 2 40) c.1).pins.lclkO = false ∧
      (nextOf (step (st (build 6 2 40) c.1))).map (fun t => (t.pins.sclkO, t.pins.lclkO)) = some c.2 := by decide

/-- DataStableAroundShiftEdge: vector D4, the data line changes from 0 to 1 into cycle 25 of D2; and `ADV` with the line at 1 sends
bit 7 of 0x06, which is 0 (cycle 41 of D2). -/
theorem witness_DataStableAroundShiftEdge :
    ∀ c ∈ [(inTick 0b010 2 1 24 false true false, true), (inTick 0b000 0 0 0 true false false, false)],
      (st (build 6 2 40) c.1).Inv ∧ c.1.ser ≠ c.2 ∧
      (nextOf (step (st (build 6 2 40) c.1))).map (·.regs.ser) = some c.2 := by decide

/-- LightsShowPattern: the first latch of D2, a wait cycle; bit 7 is above the array. -/
theorem witness_LightsShowPattern :
    ∀ r ∈ [inTick 0b011 0 0 33 true false true, inTick 0b100 0 0 35 true false false, inTick 0b101 0 0 37 true false false],
      (⟨build 6 2 40, r, ⟨0x03, 0x03⟩, [], none⟩ : State).Inv ∧
      (⟨build 6 2 40, r, ⟨0x03, 0x03⟩, [], none⟩ : State).receiverInStep ∧ (build 6 2 40).n ≤ 7 := by decide

/-- StepKeepsReceiverInStep: slot b6 of pattern 0x03, before and after its own bit is shifted, over old contents of the chain. -/
theorem witness_StepKeepsReceiverInStep :
    ∀ c ∈ [((inTick 0b001 6 0 3 false false false), (0x06 : Byte)), ((inTick 0b010 6 0 4 false true false), 0x0C)],
      (⟨build 6 1 25, c.1, ⟨c.2, 0x03⟩, [], none⟩ : State).Inv ∧
      (⟨build 6 1 25, c.1, ⟨c.2, 0x03⟩, [], none⟩ : State).receiverInStep ∧
      steps ⟨build 6 1 25, c.1, ⟨c.2, 0x03⟩, [], none⟩ = true := by decide

theorem witness_WorkPerTickIsConstant :
    let s := st (build 6 2 40) (inTick 0b100 0 1 36 true false false)
    s.Inv ∧ s.regs.phase = 0b100 ∧ s.regs.hcnt + 1 = s.params.halfCyc := by decide

/-- ResetStateSatisfiesInvariants, RunsFromResetSatisfyInvariants, OverrunDependsOnlyOnBuild, TickIntervalIsExact (second part):
legal builds at the ends of the ranges, and a quiet `rst`. -/
theorem witness_builds :
    ∀ p ∈ [build 2 1 1, build 8 1 19, build 6 2 40], p.legal = true ∧ (State.boot p ⟨0x5A, 0xA5⟩ [false]).quietFor 76 := by
  decide

/-- FrameWaveform, LatchShowsPatternAtLatency, TickIntervalIsExact, TickIsItsExpansion, TicksFollowSequenceTable: an `ADV` state
inside the invariants with `rst = 0` to come, in the row `u = 7` of the table. -/
theorem witness_tick_start :
    let s := st (build 6 2 40) { chaser 4 .desc with pat := 0x30 }
    s.Inv ∧ s.regs.phase = 0b000 ∧ s.quietFor (3 * s.params.interval) ∧ 33 ≤ 18 * s.params.halfCyc ∧
      7 < 2 * s.params.n ∧ (s.regs.pos, s.regs.dir) = chaserAt s.params.n 7 := by decide

end Sys2Proof.Tests
end

section
/-! PROOFS. The scope (00_scope.md): an illegal build is refused by everything, a legal one by nothing, and no step changes the build. -/

namespace Sys2Proof.Machine

/-! ### Illegal builds (R9) -/

theorem legal_eq_false_iff (p : Params) :
    p.legal = false ↔ p.n < 2 ∨ p.n > 8 ∨ p.halfCyc < 1 ∨ p.tickCyc < 1 := by
  rw [← Bool.not_eq_true, legal_iff]
  omega

theorem step_of_illegal {s : State} (h : s.params.legal = false) : step s = .refused .illegalParams := by
  simp [step, State.event, h]

theorem nextCycle_of_illegal {s : State} (h : s.params.legal = false) : s.nextCycle = .refused .illegalParams :=
  nextCycle_of_refused (step_of_illegal h)

theorem history_of_illegal {s : State} (h : s.params.legal = false) (k : Nat) :
    State.history k s = .refused .illegalParams := by
  cases k with
  | zero => simp [State.history, h]
  | succ k => simp [State.history, nextCycle_of_illegal h]

theorem scenario_start_of_illegal {c : Scenario} (h : c.params.legal = false) (x : Receiver) :
    c.start x = .refused .illegalParams := by
  simp [Scenario.start, h]

/-- Settles O6: where the build is illegal the step has no machine, and a scenario no start. -/
theorem illegalBuildRefused : Obligations.IllegalBuildRefused := by
  intro p hp
  have hl : p.legal = false := (legal_eq_false_iff p).mpr hp
  constructor
  · rintro s rfl
    exact ⟨step_of_illegal hl, nextCycle_of_illegal hl, history_of_illegal hl⟩
  · rintro c x rfl
    have hs := scenario_start_of_illegal hl x
    exact ⟨hs, by rw [Scenario.result, hs]; rfl, by rw [Scenario.pinTrace, hs]; rfl⟩

/-! ### Legal builds (R9, R36, R82) -/

/-- Where a refusal can come from in a legal build: the operation `phase` selects, run with `pos` in range. -/
theorem step_refused {s : State} {why : Refusal} (hl : s.params.legal = true) (h : step s = .refused why) :
    s.regs.pos.toNat < s.params.n ∧ ∃ i, decodePhase s.regs.phase = .ok i ∧ exec i s = .refused why := by
  unfold step State.event at h
  rw [if_pos hl] at h
  by_cases hr : s.rstNow = true
  · simp [hr] at h
  · cases hf : faultCheck s with
    | some f => simp [hr, hf] at h
    | none =>
      obtain ⟨-, hpos, -⟩ := faultCheck_none.mp hf
      cases hd : decodePhase s.regs.phase with
      | error e => simp [hr, hf, hd] at h
      | ok i => exact ⟨hpos, i, rfl, by simpa [hr, hf, hd] using h⟩

/-- The case the advance key selects completes: its operands are the key and a position in range (R78, R101-R106). -/
theorem runAdvanceCase_of_key {s : State} {i : Instr} (hpos : s.regs.pos.toNat < s.params.n)
    (hd : decodeAdvKey (advKey s.params s.regs) = .ok i) : ∃ t, runAdvanceCase i s = .next t := by
  obtain ⟨hk, rfl⟩ | ⟨hk, rfl⟩ | ⟨hk, rfl⟩ | ⟨hk, rfl⟩ | ⟨hk, rfl⟩ | ⟨hk, rfl⟩ := decodeAdvKey_ok hd
  all_goals exact ⟨_, advanceAs_selected hpos hk⟩

theorem execAdv_ne_refused {s : State} (hpos : s.regs.pos.toNat < s.params.n) (why : Refusal) :
    execAdv s ≠ .refused why := by
  unfold execAdv
  cases hd : decodeAdvKey (advKey s.params s.regs) with
  | error e => simp
  | ok i =>
    obtain ⟨t, ht⟩ := runAdvanceCase_of_key hpos hd
    simp [ht]

/-- No phase operation is refused where `pos` is in range: the driver's and the scheduler's always complete. -/
theorem exec_ne_refused_of_decodePhase {s : State} {i : Instr} (hpos : s.regs.pos.toNat < s.params.n)
    (hd : decodePhase s.regs.phase = .ok i) (why : Refusal) : exec i s ≠ .refused why := by
  obtain ⟨-, rfl⟩ | ⟨-, rfl⟩ | ⟨-, rfl⟩ | ⟨-, rfl⟩ | ⟨-, rfl⟩ | ⟨-, rfl⟩ := decodePhase_ok hd
  · exact execAdv_ne_refused hpos why
  all_goals nofun

/-- Settles O7: a refusal would come from the operation `phase` selects, and none refuses with `pos` in range. -/
theorem legalBuildNeverRefused : Obligations.LegalBuildNeverRefused := by
  intro s why hl h
  obtain ⟨hpos, i, hd, hi⟩ := step_refused hl h
  exact exec_ne_refused_of_decodePhase hpos hd why hi

/-! ### The build along a step (R7) -/

/-- Settles O53: a step that completes is a reset or a clock edge, and neither writes the build. -/
theorem buildNeverChanges : Obligations.BuildNeverChanges := by
  intro s t h
  obtain ⟨-, ⟨-, rfl⟩ | ⟨-, hf, -, -, i, -, hi⟩⟩ := step_next h
  · exact ⟨rfl, rfl, rfl⟩
  · obtain ⟨r, rfl⟩ := exec_next hi
    exact ⟨rfl, rfl, hf⟩

end Sys2Proof.Machine
end

section
/-! PROOFS. The state (10_state.md): the step branch by branch, what each cycle does to the registers, the invariants of R37. -/

namespace Sys2Proof.Machine

/-! ### The step, branch by branch (R36, R163) -/

theorem step_of_reset {s : State} (hl : s.params.legal = true) (hr : s.rstNow = true) :
    step s = .next s.applyReset := by
  simp [step, State.event, hl, hr]

theorem step_of_faultCheck {s : State} {f : Fault} (hl : s.params.legal = true) (hr : s.rstNow = false)
    (hf : faultCheck s = some f) : step s = .fault f := by
  simp [step, State.event, hl, hr, hf]

theorem step_of_reserved {s : State} {e : DecodeError} (hl : s.params.legal = true) (hr : s.rstNow = false)
    (hf : faultCheck s = none) (hd : decodePhase s.regs.phase = .error e) : step s = .fault .reservedPhase := by
  simp [step, State.event, hl, hr, hf, hd]

theorem step_of_decoded {s : State} {i : Instr} (hl : s.params.legal = true) (hr : s.rstNow = false)
    (hf : faultCheck s = none) (hd : decodePhase s.regs.phase = .ok i) : step s = exec i s := by
  simp [step, State.event, hl, hr, hf, hd]

theorem faultCheck_pos {s : State} (hf : s.faulted = none) (hp : s.params.n ≤ s.regs.pos.toNat) :
    faultCheck s = some .posOutOfRange := by
  simp [faultCheck, hf, hp]

theorem faultCheck_hcnt {s : State} (hf : s.faulted = none) (hp : s.regs.pos.toNat < s.params.n)
    (hh : s.params.halfCyc ≤ s.regs.hcnt) : faultCheck s = some .hcntOutOfRange := by
  simp [faultCheck, hf, hh, Nat.not_le.mpr hp]

/-- The table of R70 read forwards, the reserved codes last. -/
theorem decodePhase_eq (c : Code) :
    decodePhase c =
      if c = 0b000 then .ok .adv else if c = 0b001 then .ok .shLo else if c = 0b010 then .ok .shHi
      else if c = 0b011 then .ok .ltHi else if c = 0b100 then .ok .ltLo else if c = 0b101 then .ok .wait
      else .error .reservedPhase := by
  revert c
  decide

theorem decodePhase_error_iff {c : Code} {e : DecodeError} :
    decodePhase c = .error e ↔ (c = 0b110 ∨ c = 0b111) ∧ e = .reservedPhase := by
  cases e <;> revert c <;> decide

/-- Settles O4: the event of the cycle is found check by check in R36's order, and the reset leaves the receiver alone. -/
theorem stepRunsSelectedOperation : Obligations.StepRunsSelectedOperation := by
  intro s hl hf
  cases hr : s.rstNow with
  | true =>
    rw [step_of_reset hl hr, if_pos rfl, State.applyReset, State.commit, react_reset, hf]
    rfl
  | false =>
    rw [if_neg Bool.false_ne_true]
    by_cases hp : s.regs.pos.toNat ≥ s.params.n
    · rw [if_pos hp, step_of_faultCheck hl hr (faultCheck_pos hf hp)]
    by_cases hh : s.regs.hcnt ≥ s.params.halfCyc
    · rw [if_neg hp, if_pos hh, step_of_faultCheck hl hr (faultCheck_hcnt hf (not_le.mp hp) hh)]
    have hc : faultCheck s = none := faultCheck_none.mpr ⟨hf, not_le.mp hp, not_le.mp hh⟩
    rw [if_neg hp, if_neg hh]
    have hd := decodePhase_eq s.regs.phase
    split_ifs at hd ⊢
    case neg => exact step_of_reserved hl hr hc hd
    all_goals exact step_of_decoded hl hr hc hd

/-- Settles O5: the checks pass, so the event of the cycle is the decoded operation. -/
theorem stepIsExecOfDecoded : Obligations.StepIsExecOfDecoded := by
  intro s i hl hr hf hp hh hd
  refine ⟨?_, step_of_decoded hl hr (faultCheck_none.mpr ⟨hf, hp, hh⟩) hd⟩
  obtain ⟨-, rfl⟩ | ⟨-, rfl⟩ | ⟨-, rfl⟩ | ⟨-, rfl⟩ | ⟨-, rfl⟩ | ⟨-, rfl⟩ := decodePhase_ok hd
  all_goals rfl

/-! ### Progress: the operation a legal build selects completes -/

theorem dir_bit_eq_true {d : Dir} : d.bit = true ↔ d = .desc := by cases d <;> decide
theorem dir_bit_eq_false {d : Dir} : d.bit = false ↔ d = .asc := by cases d <;> decide

theorem decodeAdvKey_error {c : Code} {e : DecodeError} (h : decodeAdvKey c = .error e) : c = 0b110 ∨ c = 0b111 := by
  revert h
  cases e <;> revert c <;> decide

/-- In a legal build the two bounds never hold at once, so the advance key selects a case (R78, R79). -/
theorem decodeAdvKey_of_legal {p : Params} (hl : p.legal = true) (r : Regs) :
    ∃ i, decodeAdvKey (advKey p r) = .ok i := by
  cases hd : decodeAdvKey (advKey p r) with
  | ok i => exact ⟨i, rfl⟩
  | error e =>
    have hb : atLower r = true ∧ atUpper p r = true := by
      obtain h | h := decodeAdvKey_error hd
      · exact ((advKey_eq_iff p r true true false).mp h).imp_right And.left
      · exact ((advKey_eq_iff p r true true true).mp h).imp_right And.left
    rw [atLower_iff, atUpper_iff] at hb
    have hn := ((legal_iff p).mp hl).1
    omega

theorem execAdv_completes {s : State} (hl : s.params.legal = true) (hp : s.regs.pos.toNat < s.params.n) :
    ∃ t, execAdv s = .next t := by
  obtain ⟨i, hi⟩ := decodeAdvKey_of_legal hl s.regs
  simpa [execAdv, hi] using runAdvanceCase_of_key hp hi

/-- In a legal build with `pos` in range the operation `phase` selects answers a next state. -/
theorem exec_completes {s : State} {i : Instr} (hl : s.params.legal = true) (hp : s.regs.pos.toNat < s.params.n)
    (hd : decodePhase s.regs.phase = .ok i) : ∃ t, exec i s = .next t := by
  obtain ⟨-, rfl⟩ | ⟨-, rfl⟩ | ⟨-, rfl⟩ | ⟨-, rfl⟩ | ⟨-, rfl⟩ | ⟨-, rfl⟩ := decodePhase_ok hd
  · exact execAdv_completes hl hp
  all_goals exact ⟨_, rfl⟩

/-- Settles O8: each check that fails reports its own fault, and a selected operation completes. -/
theorem stepFaultsExactlyAsListed : Obligations.StepFaultsExactlyAsListed := by
  intro s f hl hf
  cases hr : s.rstNow with
  | true => simp [step_of_reset hl hr]
  | false =>
    by_cases hp : s.params.n ≤ s.regs.pos.toNat
    · simp [step_of_faultCheck hl hr (faultCheck_pos hf hp), hp, Nat.not_lt.mpr hp, eq_comm]
    have hp' := not_le.mp hp
    by_cases hh : s.params.halfCyc ≤ s.regs.hcnt
    · simp [step_of_faultCheck hl hr (faultCheck_hcnt hf hp' hh), hp, hp', hh, Nat.not_lt.mpr hh, eq_comm]
    have hh' := not_le.mp hh
    have hc : faultCheck s = none := faultCheck_none.mpr ⟨hf, hp', hh'⟩
    cases hd : decodePhase s.regs.phase with
    | error e =>
      have hres := (decodePhase_error_iff.mp hd).1
      simpa [step_of_reserved hl hr hc hd, hp', hh', hp, hh, eq_comm] using fun _ => hres
    | ok i =>
      obtain ⟨t, ht⟩ := exec_completes hl hp' hd
      have hres : ¬ (s.regs.phase = 0b110 ∨ s.regs.phase = 0b111) := fun h => by
        simp [decodePhase_error_iff.mpr ⟨h, rfl⟩] at hd
      simpa [step_of_decoded hl hr hc hd, ht, hp, hh] using fun _ _ _ => not_or.mp hres

/-- Settles O11: `Regs.reset` is R23's column of reset values. -/
theorem bootStateIsResetState : Obligations.BootStateIsResetState :=
  ⟨fun _ _ _ => rfl, rfl, rfl⟩

/-! ### What a cycle without reset does to the registers -/

/-- The three ways an advance moves the chaser (R101-R106): it reverses at the bound ahead, or goes one place the way it faces. -/
inductive ChaserMove (n : Nat) (pos : Code) (d : Dir) : Code → Dir → Prop where
  | reverse (hbound : pos.toNat = 0 ∧ d = .desc ∨ pos.toNat + 1 = n ∧ d = .asc) :
      ChaserMove n pos d pos (Dir.reversed d)
  | up (hdir : d = .asc) (hroom : pos.toNat + 1 < n) : ChaserMove n pos d (pos + 1) d
  | down (hdir : d = .desc) (hroom : 0 < pos.toNat) : ChaserMove n pos d (pos - 1) d

/-- The phases in which `hcnt` counts a half-period (R33, R55). -/
abbrev Regs.inFrame (r : Regs) : Prop :=
  r.phase = Phase.shLo ∨ r.phase = Phase.shHi ∨ r.phase = Phase.ltHi ∨ r.phase = Phase.ltLo

/-- Everything the operation `phase` selects can do to the registers, one constructor per branch of R100-R106, R120-R126, R146 and
R147. -/
inductive RegsMove (p : Params) (r : Regs) : Regs → Prop where
  | advance {pos' : Code} {dir' : Dir} (hphase : r.phase = Phase.adv)
      (hmove : ChaserMove p.n r.pos r.dir pos' dir') : RegsMove p r (startFrame p r pos' dir')
  | countHalf (hphase : r.inFrame) (hmore : r.hcnt + 1 < p.halfCyc) :
      RegsMove p r { r with hcnt := r.hcnt + 1, tcnt := r.tcnt + 1 }
  | raiseShiftClock (hphase : r.phase = Phase.shLo) (hlast : r.hcnt + 1 = p.halfCyc) :
      RegsMove p r { r with hcnt := 0, sclk := true, phase := Phase.shHi, tcnt := r.tcnt + 1 }
  | nextBit (hphase : r.phase = Phase.shHi) (hlast : r.hcnt + 1 = p.halfCyc) (hbit : 0 < r.bitidx.toNat) :
      RegsMove p r { r with
        hcnt := 0, sclk := false, bitidx := r.bitidx - 1, ser := dataBit r.pat (r.bitidx - 1), phase := Phase.shLo,
        tcnt := r.tcnt + 1 }
  | raiseLatch (hphase : r.phase = Phase.shHi) (hlast : r.hcnt + 1 = p.halfCyc) (hbit : r.bitidx.toNat = 0) :
      RegsMove p r { r with hcnt := 0, sclk := false, lclk := true, phase := Phase.ltHi, tcnt := r.tcnt + 1 }
  | lowerLatch (hphase : r.phase = Phase.ltHi) (hlast : r.hcnt + 1 = p.halfCyc) :
      RegsMove p r { r with hcnt := 0, lclk := false, phase := Phase.ltLo, tcnt := r.tcnt + 1 }
  | endInTime (hphase : r.phase = Phase.ltLo) (hlast : r.hcnt + 1 = p.halfCyc) (htime : r.tcnt + 1 < p.tickCyc) :
      RegsMove p r { r with hcnt := 0, tcnt := r.tcnt + 1, phase := Phase.wait }
  | endOverrun (hphase : r.phase = Phase.ltLo) (hlast : r.hcnt + 1 = p.halfCyc) (htime : p.tickCyc ≤ r.tcnt + 1) :
      RegsMove p r { r with hcnt := 0, ovr := true, tcnt := 0, phase := Phase.adv }
  | waitOn (hphase : r.phase = Phase.wait) (htime : r.tcnt + 1 < p.tickCyc) :
      RegsMove p r { r with tcnt := r.tcnt + 1 }
  | waitEnd (hphase : r.phase = Phase.wait) (htime : p.tickCyc ≤ r.tcnt + 1) :
      RegsMove p r { r with tcnt := 0, phase := Phase.adv }

theorem room_above {p : Params} {r : Regs} (hpos : r.pos.toNat < p.n) (hub : atUpper p r = false) :
    r.pos.toNat + 1 < p.n := by
  rw [← Bool.not_eq_true, atUpper_iff] at hub
  omega

theorem room_below {r : Regs} (hlb : atLower r = false) : 0 < r.pos.toNat := by
  rw [← Bool.not_eq_true, atLower_iff] at hlb
  omega

/-- The case an advance key selects moves the chaser as the key's bits say (R78, R101-R106). -/
theorem runAdvanceCase_chaserMove {i : Instr} {s t : State} (h : runAdvanceCase i s = .next t) :
    ∃ pos' dir', ChaserMove s.params.n s.regs.pos s.regs.dir pos' dir' ∧
      t = s.commit (startFrame s.params s.regs pos' dir') := by
  cases i with
  | adv | shLo | shHi | ltHi | ltLo | wait => cases h
  | advLbRev =>
    obtain ⟨-, hkey, rfl⟩ := advanceAs_next h
    obtain ⟨hlb, -, hd⟩ := (advKey_eq_iff _ _ true false true).mp hkey
    exact ⟨_, _, .reverse (.inl ⟨(atLower_iff _).mp hlb, dir_bit_eq_true.mp hd⟩), rfl⟩
  | advUbRev =>
    obtain ⟨-, hkey, rfl⟩ := advanceAs_next h
    obtain ⟨-, hub, hd⟩ := (advKey_eq_iff _ _ false true false).mp hkey
    exact ⟨_, _, .reverse (.inr ⟨(atUpper_iff _ _).mp hub, dir_bit_eq_false.mp hd⟩), rfl⟩
  | advLbFwd =>
    obtain ⟨hpos, hkey, rfl⟩ := advanceAs_next h
    obtain ⟨-, hub, hd⟩ := (advKey_eq_iff _ _ true false false).mp hkey
    exact ⟨_, _, .up (dir_bit_eq_false.mp hd) (room_above hpos hub), rfl⟩
  | advIntUp =>
    obtain ⟨hpos, hkey, rfl⟩ := advanceAs_next h
    obtain ⟨-, hub, hd⟩ := (advKey_eq_iff _ _ false false false).mp hkey
    exact ⟨_, _, .up (dir_bit_eq_false.mp hd) (room_above hpos hub), rfl⟩
  | advUbBack =>
    obtain ⟨-, hkey, rfl⟩ := advanceAs_next h
    obtain ⟨hlb, -, hd⟩ := (advKey_eq_iff _ _ false true true).mp hkey
    exact ⟨_, _, .down (dir_bit_eq_true.mp hd) (room_below hlb), rfl⟩
  | advIntDn =>
    obtain ⟨-, hkey, rfl⟩ := advanceAs_next h
    obtain ⟨hlb, -, hd⟩ := (advKey_eq_iff _ _ false false true).mp hkey
    exact ⟨_, _, .down (dir_bit_eq_true.mp hd) (room_below hlb), rfl⟩

/-- A frame phase counts its half-period or does what it does in the last cycle of it. -/
theorem regsMove_halfPeriod {p : Params} {r last : Regs} (hphase : r.inFrame) (hh : r.hcnt < p.halfCyc)
    (hmove : r.hcnt + 1 = p.halfCyc → RegsMove p r last) : RegsMove p r (halfPeriod p r last) := by
  by_cases hmore : r.hcnt + 1 < p.halfCyc
  · rw [halfPeriod_more hmore]
    exact .countHalf hphase hmore
  · rw [halfPeriod_last (not_lt.mp hmore)]
    exact hmove (by omega)

/-- `SH_HI` ends with the next bit or with the latch (R123). -/
theorem regsMove_endOfShiftPulse {p : Params} {r : Regs} (hphase : r.phase = Phase.shHi)
    (hlast : r.hcnt + 1 = p.halfCyc) : RegsMove p r { endOfShiftPulse r with tcnt := r.tcnt + 1 } := by
  by_cases hbit : 0 < r.bitidx.toNat
  · rw [endOfShiftPulse_nextBit hbit]
    exact .nextBit hphase hlast hbit
  · rw [endOfShiftPulse_lastBit (by omega)]
    exact .raiseLatch hphase hlast (by omega)

/-- `LT_LO` ends the frame in time or overrun (R146). -/
theorem regsMove_endOfFrame {p : Params} {r : Regs} (hphase : r.phase = Phase.ltLo)
    (hlast : r.hcnt + 1 = p.halfCyc) : RegsMove p r { endOfFrame p r with hcnt := 0 } := by
  by_cases htime : p.tickCyc ≤ r.tcnt + 1
  · rw [endOfFrame_overrun htime]
    exact .endOverrun hphase hlast htime
  · rw [endOfFrame_inTime (not_le.mp htime)]
    exact .endInTime hphase hlast (not_le.mp htime)

/-- The operation `phase` selects is a clock edge that makes one of the moves. -/
theorem exec_regsMove {s t : State} {i : Instr} (hh : s.regs.hcnt < s.params.halfCyc)
    (hd : decodePhase s.regs.phase = .ok i) (h : exec i s = .next t) :
    RegsMove s.params s.regs t.regs ∧ t = s.commit t.regs := by
  obtain ⟨hp, rfl⟩ | ⟨hp, rfl⟩ | ⟨hp, rfl⟩ | ⟨hp, rfl⟩ | ⟨hp, rfl⟩ | ⟨hp, rfl⟩ := decodePhase_ok hd
  · obtain ⟨i, -, hi⟩ := execAdv_next h
    obtain ⟨pos', dir', hmove, rfl⟩ := runAdvanceCase_chaserMove hi
    exact ⟨.advance hp hmove, rfl⟩
  · cases h
    exact ⟨regsMove_halfPeriod (.inl hp) hh (.raiseShiftClock hp), rfl⟩
  · cases h
    exact ⟨regsMove_halfPeriod (.inr (.inl hp)) hh (regsMove_endOfShiftPulse hp), rfl⟩
  · cases h
    exact ⟨regsMove_halfPeriod (.inr (.inr (.inl hp))) hh (.lowerLatch hp), rfl⟩
  · cases h
    exact ⟨regsMove_halfPeriod (.inr (.inr (.inr hp))) hh (regsMove_endOfFrame hp), rfl⟩
  · cases h
    refine ⟨?_, rfl⟩
    rw [commit_regs]
    split_ifs with htime
    · exact .waitEnd hp htime
    · exact .waitOn hp (not_le.mp htime)

/-- A step without reset that answers a next state is a clock edge that makes one of the moves. -/
theorem step_regsMove {s t : State} (hr : s.rstNow = false) (h : step s = .next t) :
    RegsMove s.params s.regs t.regs ∧ t = s.commit t.regs := by
  obtain ⟨-, ⟨hr', -⟩ | ⟨-, -, -, hh, i, hd, hi⟩⟩ := step_next h
  · rw [hr] at hr'
    cases hr'
  · exact exec_regsMove hh hd hi

theorem step_reset_regs {s t : State} (hr : s.rstNow = true) (h : step s = .next t) : t.regs = Regs.reset := by
  rw [step_of_reset (step_next h).1 hr] at h
  cases h
  rfl

/-- Settles O37: only an advance writes the chaser state and the pattern, and only its reversal the direction. -/
theorem chaserWrittenOnlyByAdvance : Obligations.ChaserWrittenOnlyByAdvance := by
  intro s t hr h
  obtain ⟨hmove, -⟩ := step_regsMove hr h
  generalize t.regs = r' at hmove ⊢
  cases hmove with
  | advance hphase hchaser =>
    refine ⟨fun hne => absurd hphase hne, fun hne => ?_⟩
    cases hchaser with
    | reverse hbound => exact ⟨rfl, hbound.imp And.left And.left⟩
    | up | down => exact absurd rfl hne
  | _ => exact ⟨fun _ => ⟨rfl, rfl, rfl⟩, fun hne => absurd rfl hne⟩

/-- A move sets the overrun flag only as it ends a frame that took the tick period or longer (R146). -/
theorem RegsMove.ovr_iff {p : Params} {r r' : Regs} (h : RegsMove p r r') :
    r'.ovr = true ↔ r.ovr = true ∨
      (r.phase = Phase.ltLo ∧ r.hcnt + 1 = p.halfCyc ∧ p.tickCyc ≤ r.tcnt + 1) := by
  cases h with
  | endOverrun hphase hlast htime => exact ⟨fun _ => .inr ⟨hphase, hlast, htime⟩, fun _ => rfl⟩
  | endInTime hphase hlast htime => exact ⟨.inl, fun h => h.resolve_right fun ⟨_, _, c⟩ => absurd htime (not_lt.mpr c)⟩
  | countHalf hphase hmore => exact ⟨.inl, fun h => h.resolve_right fun ⟨_, c, _⟩ => absurd hmore (by omega)⟩
  | advance hphase | raiseShiftClock hphase | nextBit hphase | raiseLatch hphase | lowerLatch hphase | waitOn hphase
  | waitEnd hphase =>
    exact ⟨.inl, fun h => h.resolve_right fun ⟨c, _, _⟩ => absurd (hphase.symm.trans c) (by decide)⟩

/-- Settles O38: without reset the flag follows the move of the cycle; with reset it is cleared. -/
theorem overrunFlagIsSticky : Obligations.OverrunFlagIsSticky := by
  intro s t h
  refine ⟨fun hr => (step_regsMove hr h).1.ovr_iff, fun hr => ?_⟩
  rw [step_reset_regs hr h, reset_ovr]

/-! ### The invariants, phase by phase (R37) -/

/-- I1 to I8 on the registers of a build. -/
def Regs.Inv (p : Params) (r : Regs) : Prop :=
  r.posInRange p ∧ r.clocksFollowPhase ∧ r.halfCountInRange p ∧ r.patternIsTrail p ∧ r.dataOnLine ∧ r.tickCounted p ∧
    r.phaseNotReserved ∧ r.patternInWidth p

theorem inv_iff (s : State) : s.Inv ↔ s.params.legal = true ∧ s.faulted = none ∧ s.regs.Inv s.params := Iff.rfl

section
variable {p : Params} {r : Regs}

/-- I1 to I8 in a phase given by its code, with their conditions on the phase spelled out. -/
theorem regsInv_at {c : Code} (h : r.phase = c) :
    r.Inv p ↔ r.pos.toNat < p.n ∧ ((r.sclk = true ↔ c = Phase.shHi) ∧ (r.lclk = true ↔ c = Phase.ltHi)) ∧
      (r.hcnt < p.halfCyc ∧ (c = Phase.adv ∨ c = Phase.wait → r.hcnt = 0)) ∧
      (c ≠ Phase.adv → r.pat = trail p.n r.pos r.dir) ∧
      ((c = Phase.shLo ∨ c = Phase.shHi → r.ser = dataBit r.pat r.bitidx) ∧
        (c = Phase.ltHi ∨ c = Phase.ltLo ∨ c = Phase.wait ∨ c = Phase.adv → r.ser = dataBit r.pat 0 ∧ r.bitidx = 0)) ∧
      ((c = Phase.adv → r.tcnt = 0) ∧
        (c = Phase.shLo → r.tcnt = 1 + 2 * p.halfCyc * (7 - r.bitidx.toNat) + r.hcnt) ∧
        (c = Phase.shHi → r.tcnt = 1 + 2 * p.halfCyc * (7 - r.bitidx.toNat) + p.halfCyc + r.hcnt) ∧
        (c = Phase.ltHi → r.tcnt = 1 + 16 * p.halfCyc + r.hcnt) ∧
        (c = Phase.ltLo → r.tcnt = 1 + 17 * p.halfCyc + r.hcnt) ∧
        (c = Phase.wait → p.work ≤ r.tcnt ∧ r.tcnt ≤ p.tickCyc - 1)) ∧
      (c ≠ 0b110 ∧ c ≠ 0b111) ∧ r.pat >>> p.n = 0 := by
  subst h
  exact Iff.rfl

theorem regsInv_adv_iff (h : r.phase = Phase.adv) :
    r.Inv p ↔ r.pos.toNat < p.n ∧ (r.sclk = false ∧ r.lclk = false) ∧ (r.hcnt < p.halfCyc ∧ r.hcnt = 0) ∧
      (r.ser = dataBit r.pat 0 ∧ r.bitidx = 0) ∧ r.tcnt = 0 ∧ r.pat >>> p.n = 0 := by
  simp [regsInv_at h, Phase.adv, Phase.shLo, Phase.shHi, Phase.ltHi, Phase.ltLo, Phase.wait]

theorem regsInv_shLo_iff (h : r.phase = Phase.shLo) :
    r.Inv p ↔ r.pos.toNat < p.n ∧ (r.sclk = false ∧ r.lclk = false) ∧ r.hcnt < p.halfCyc ∧
      r.pat = trail p.n r.pos r.dir ∧ r.ser = dataBit r.pat r.bitidx ∧
      r.tcnt = 1 + 2 * p.halfCyc * (7 - r.bitidx.toNat) + r.hcnt ∧ r.pat >>> p.n = 0 := by
  simp [regsInv_at h, Phase.adv, Phase.shLo, Phase.shHi, Phase.ltHi, Phase.ltLo, Phase.wait]

theorem regsInv_shHi_iff (h : r.phase = Phase.shHi) :
    r.Inv p ↔ r.pos.toNat < p.n ∧ (r.sclk = true ∧ r.lclk = false) ∧ r.hcnt < p.halfCyc ∧
      r.pat = trail p.n r.pos r.dir ∧ r.ser = dataBit r.pat r.bitidx ∧
      r.tcnt = 1 + 2 * p.halfCyc * (7 - r.bitidx.toNat) + p.halfCyc + r.hcnt ∧ r.pat >>> p.n = 0 := by
  simp [regsInv_at h, Phase.adv, Phase.shLo, Phase.shHi, Phase.ltHi, Phase.ltLo, Phase.wait]

theorem regsInv_ltHi_iff (h : r.phase = Phase.ltHi) :
    r.Inv p ↔ r.pos.toNat < p.n ∧ (r.sclk = false ∧ r.lclk = true) ∧ r.hcnt < p.halfCyc ∧
      r.pat = trail p.n r.pos r.dir ∧ (r.ser = dataBit r.pat 0 ∧ r.bitidx = 0) ∧
      r.tcnt = 1 + 16 * p.halfCyc + r.hcnt ∧ r.pat >>> p.n = 0 := by
  simp [regsInv_at h, Phase.adv, Phase.shLo, Phase.shHi, Phase.ltHi, Phase.ltLo, Phase.wait]

theorem regsInv_ltLo_iff (h : r.phase = Phase.ltLo) :
    r.Inv p ↔ r.pos.toNat < p.n ∧ (r.sclk = false ∧ r.lclk = false) ∧ r.hcnt < p.halfCyc ∧
      r.pat = trail p.n r.pos r.dir ∧ (r.ser = dataBit r.pat 0 ∧ r.bitidx = 0) ∧
      r.tcnt = 1 + 17 * p.halfCyc + r.hcnt ∧ r.pat >>> p.n = 0 := by
  simp [regsInv_at h, Phase.adv, Phase.shLo, Phase.shHi, Phase.ltHi, Phase.ltLo, Phase.wait]

theorem regsInv_wait_iff (h : r.phase = Phase.wait) :
    r.Inv p ↔ r.pos.toNat < p.n ∧ (r.sclk = false ∧ r.lclk = false) ∧ (r.hcnt < p.halfCyc ∧ r.hcnt = 0) ∧
      r.pat = trail p.n r.pos r.dir ∧ (r.ser = dataBit r.pat 0 ∧ r.bitidx = 0) ∧
      (p.work ≤ r.tcnt ∧ r.tcnt ≤ p.tickCyc - 1) ∧ r.pat >>> p.n = 0 := by
  simp [regsInv_at h, Phase.adv, Phase.shLo, Phase.shHi, Phase.ltHi, Phase.ltLo, Phase.wait]

end

/-! ### Every move keeps the invariants (R37) -/

theorem toNat_add_one {pos : Code} {n : Nat} (hn : n ≤ 8) (hroom : pos.toNat + 1 < n) :
    (pos + 1).toNat = pos.toNat + 1 :=
  BitVec.toNat_add_of_lt (y := 1) (show pos.toNat + 1 < 8 by omega)

theorem toNat_sub_one {c : Code} (h : 0 < c.toNat) : (c - 1).toNat = c.toNat - 1 :=
  BitVec.toNat_sub_of_le (BitVec.le_def.mpr h)

/-- An advance leaves the position in the array. -/
theorem ChaserMove.inRange {n : Nat} {pos pos' : Code} {d d' : Dir} (hn : n ≤ 8) (hpos : pos.toNat < n)
    (h : ChaserMove n pos d pos' d') : pos'.toNat < n := by
  cases h with
  | reverse hbound => exact hpos
  | up hdir hroom => rwa [toNat_add_one hn hroom]
  | down hdir hroom =>
    rw [toNat_sub_one hroom]
    omega

/-- The two lights of the pattern, one at `pos` and one ahead, are those of the trail after the move, at `pos'` and behind
(R110). -/
theorem ChaserMove.trail_eq {n : Nat} {pos pos' : Code} {d d' : Dir} (hn : n ≤ 8) (hpos : pos.toNat < n)
    (h : ChaserMove n pos d pos' d') : trail n pos' d' = pattern n pos d := by
  cases h with
  | reverse hbound => cases d <;> rfl
  | up hdir hroom =>
    subst hdir
    have hb : guardBit n (((pos + 1).toNat : Int) - 1) = oneBit pos.toNat := by
      rw [toNat_add_one hn hroom, Nat.cast_succ, add_sub_cancel_right, guardBit_inside (by omega) (by omega),
        Int.toNat_natCast]
    have ha : guardBit n ((pos.toNat : Int) + 1) = oneBit (pos + 1).toNat := by
      rw [guardBit_inside (by omega) (by omega), toNat_add_one hn hroom]
      rfl
    rw [trail, hb, pattern, adj, ha, BitVec.or_comm]
  | down hdir hroom =>
    subst hdir
    have hb : guardBit n (((pos - 1).toNat : Int) + 1) = oneBit pos.toNat := by
      rw [toNat_sub_one hroom, guardBit_inside (by omega) (by omega)]
      congr 1
      omega
    have ha : guardBit n ((pos.toNat : Int) - 1) = oneBit (pos - 1).toNat := by
      rw [guardBit_inside (by omega) (by omega), toNat_sub_one hroom]
      congr 1
      omega
    rw [trail, hb, pattern, adj, ha, BitVec.or_comm]

theorem oneBit_ushiftRight {k n : Nat} (h : k < n) : oneBit k >>> n = 0 := by
  ext i hi
  simp [oneBit]
  omega

theorem guardBit_ushiftRight (n : Nat) (a : Int) : guardBit n a >>> n = 0 := by
  unfold guardBit
  split_ifs with h
  · exact oneBit_ushiftRight (by omega)
  · exact BitVec.zero_ushiftRight

/-- No pattern lights a bit outside the array (R108, R111). -/
theorem pattern_ushiftRight {n : Nat} {pos : Code} (hpos : pos.toNat < n) (d : Dir) : pattern n pos d >>> n = 0 := by
  rw [pattern, BitVec.ushiftRight_or_distrib, oneBit_ushiftRight hpos, guardBit_ushiftRight]
  rfl

section
variable {p : Params} {r r' : Regs}

/-- A frame phase that goes on: only the two counters move, together. -/
theorem countHalf_keeps_inv (hphase : r.inFrame) (hmore : r.hcnt + 1 < p.halfCyc) (hi : r.Inv p) :
    Regs.Inv p { r with hcnt := r.hcnt + 1, tcnt := r.tcnt + 1 } := by
  obtain ⟨hpos, hclk, -, htrail, hdata, ⟨-, hshLo, hshHi, hltHi, hltLo, -⟩, hres, hw⟩ := hi
  have hne : r.phase ≠ Phase.adv ∧ r.phase ≠ Phase.wait := by
    obtain hp | hp | hp | hp := hphase
    all_goals rw [hp]; decide
  exact ⟨hpos, hclk, ⟨hmore, fun h => absurd h (not_or.mpr hne)⟩, htrail, hdata,
    ⟨fun h => absurd h hne.1, fun h => congrArg (· + 1) (hshLo h), fun h => congrArg (· + 1) (hshHi h),
      fun h => congrArg (· + 1) (hltHi h), fun h => congrArg (· + 1) (hltLo h), fun h => absurd h hne.2⟩, hres, hw⟩

/-- Each move keeps I1 to I8: the invariants of the phase it leaves give those of the phase it enters. -/
theorem RegsMove.keeps_inv (hl : p.legal = true) (hi : r.Inv p) (h : RegsMove p r r') : r'.Inv p := by
  obtain ⟨-, hn, hH, -⟩ := (legal_iff p).mp hl
  cases h with
  | advance hphase hmove =>
    obtain ⟨hpos, -, -, -, htick, -⟩ := (regsInv_adv_iff hphase).mp hi
    exact (regsInv_shLo_iff rfl).mpr ⟨hmove.inRange hn hpos, ⟨rfl, rfl⟩, hH, (hmove.trail_eq hn hpos).symm, rfl,
      by simp [htick], pattern_ushiftRight hpos _⟩
  | countHalf hphase hmore => exact countHalf_keeps_inv hphase hmore hi
  | raiseShiftClock hphase hlast =>
    obtain ⟨hpos, ⟨-, hlc⟩, -, hpat, hser, htick, hw⟩ := (regsInv_shLo_iff hphase).mp hi
    exact (regsInv_shHi_iff rfl).mpr ⟨hpos, ⟨rfl, hlc⟩, hH, hpat, hser, by dsimp only; omega, hw⟩
  | nextBit hphase hlast hbit =>
    obtain ⟨hpos, ⟨-, hlc⟩, -, hpat, -, htick, hw⟩ := (regsInv_shHi_iff hphase).mp hi
    refine (regsInv_shLo_iff rfl).mpr ⟨hpos, ⟨rfl, hlc⟩, hH, hpat, rfl, ?_, hw⟩
    have hslot : 7 - (r.bitidx - 1).toNat = 7 - r.bitidx.toNat + 1 := by
      rw [toNat_sub_one hbit]
      omega
    rw [hslot, Nat.mul_succ]
    dsimp only
    omega
  | raiseLatch hphase hlast hbit =>
    obtain ⟨hpos, -, -, hpat, hser, htick, hw⟩ := (regsInv_shHi_iff hphase).mp hi
    have hb : r.bitidx = 0 := BitVec.eq_of_toNat_eq hbit
    rw [hb] at hser
    rw [hbit] at htick
    exact (regsInv_ltHi_iff rfl).mpr ⟨hpos, ⟨rfl, rfl⟩, hH, hpat, ⟨hser, hb⟩, by dsimp only; omega, hw⟩
  | lowerLatch hphase hlast =>
    obtain ⟨hpos, ⟨hsc, -⟩, -, hpat, hser, htick, hw⟩ := (regsInv_ltHi_iff hphase).mp hi
    exact (regsInv_ltLo_iff rfl).mpr ⟨hpos, ⟨hsc, rfl⟩, hH, hpat, hser, by dsimp only; omega, hw⟩
  | endInTime hphase hlast htime =>
    obtain ⟨hpos, hclk, -, hpat, hser, htick, hw⟩ := (regsInv_ltLo_iff hphase).mp hi
    have hwork : p.work = r.tcnt + 1 := by
      rw [Params.work]
      omega
    exact (regsInv_wait_iff rfl).mpr
      ⟨hpos, hclk, ⟨hH, rfl⟩, hpat, hser, ⟨hwork.le, Nat.le_sub_one_of_lt htime⟩, hw⟩
  | endOverrun hphase hlast htime =>
    obtain ⟨hpos, hclk, -, hpat, hser, htick, hw⟩ := (regsInv_ltLo_iff hphase).mp hi
    exact (regsInv_adv_iff rfl).mpr ⟨hpos, hclk, ⟨hH, rfl⟩, hser, rfl, hw⟩
  | waitOn hphase htime =>
    obtain ⟨hpos, hclk, hhc, hpat, hser, ⟨hwork, -⟩, hw⟩ := (regsInv_wait_iff hphase).mp hi
    exact (regsInv_wait_iff (r := { r with tcnt := r.tcnt + 1 }) hphase).mpr
      ⟨hpos, hclk, hhc, hpat, hser, ⟨Nat.le_succ_of_le hwork, Nat.le_sub_one_of_lt htime⟩, hw⟩
  | waitEnd hphase htime =>
    obtain ⟨hpos, hclk, hhc, -, hser, -, hw⟩ := (regsInv_wait_iff hphase).mp hi
    exact (regsInv_adv_iff rfl).mpr ⟨hpos, hclk, hhc, hser, rfl, hw⟩

theorem reset_inv (hl : p.legal = true) : Regs.reset.Inv p := by
  obtain ⟨hn, -, hH, -⟩ := (legal_iff p).mp hl
  exact (regsInv_adv_iff rfl).mpr
    ⟨Nat.lt_of_lt_of_le Nat.two_pos hn, ⟨rfl, rfl⟩, ⟨hH, rfl⟩, ⟨rfl, rfl⟩, rfl, BitVec.zero_ushiftRight⟩

end

theorem boot_inv {p : Params} (hl : p.legal = true) (x : Receiver) (l : List Bool) : (State.boot p x l).Inv :=
  (inv_iff _).mpr ⟨hl, rfl, reset_inv hl⟩

/-- Before the frame of a tick begins the receiver has nothing to be in step with (R60). -/
theorem receiverInStep_of_adv {s : State} (h : s.regs.phase = Phase.adv) : s.receiverInStep := by
  simp [State.receiverInStep, h, Phase.adv, Phase.shLo, Phase.shHi, Phase.ltHi, Phase.ltLo, Phase.wait]

/-- Settles O46: cycle 0 of a legal build is in `ADV` with every register 0, and no frame has begun. -/
theorem resetStateSatisfiesInvariants : Obligations.ResetStateSatisfiesInvariants :=
  ⟨boot_inv (by decide) _ _, fun _ x l hl => ⟨boot_inv hl x l, receiverInStep_of_adv rfl⟩⟩

/-- Settles O47: a reset reaches the reset registers, and every other step makes a move. -/
theorem stepKeepsInvariants : Obligations.StepKeepsInvariants := by
  intro s t hi h
  obtain ⟨hl, hf, hregs⟩ := (inv_iff s).mp hi
  cases hr : s.rstNow with
  | true =>
    rw [step_of_reset hl hr] at h
    cases h
    exact (inv_iff _).mpr ⟨hl, rfl, reset_inv hl⟩
  | false =>
    obtain ⟨hmove, ht⟩ := step_regsMove hr h
    have hregs' := hmove.keeps_inv hl hregs
    rw [ht]
    exact (inv_iff _).mpr ⟨hl, hf, hregs'⟩

/-! ### Runs from reset (R37, R162) -/

theorem decodePhase_of_not_reserved {r : Regs} (h : r.phaseNotReserved) : ∃ i, decodePhase r.phase = .ok i := by
  cases hd : decodePhase r.phase with
  | ok i => exact ⟨i, rfl⟩
  | error e => exact absurd (decodePhase_error_iff.mp hd).1 (not_or.mpr h)

/-- Where the invariants hold the checks pass and `phase` selects an operation, which completes. -/
theorem step_completes {s : State} (hi : s.Inv) : ∃ t, step s = .next t := by
  obtain ⟨hl, hf, hpos, -, ⟨hh, -⟩, -, -, -, hres, -⟩ := hi
  cases hr : s.rstNow with
  | true => exact ⟨_, step_of_reset hl hr⟩
  | false =>
    obtain ⟨i, hd⟩ := decodePhase_of_not_reserved hres
    rw [step_of_decoded hl hr (faultCheck_none.mpr ⟨hf, hpos, hh⟩) hd]
    exact exec_completes hl hpos hd

theorem run_succ_of_step {M : Host.Core} {s t : M.State} (h : M.step s = .next t) (k : Nat) :
    M.run (k + 1) s = M.run k t := by
  rw [Host.Core.run, h]

/-- The induction along a run: the step goes on and keeps the invariants. -/
theorem run_keeps_inv (c : Nat) {s : State} (hi : s.Inv) : ∃ t, core.run c s = .next t ∧ State.Inv t := by
  induction c generalizing s with
  | zero => exact ⟨s, rfl, hi⟩
  | succ c ih =>
    obtain ⟨t, ht⟩ := step_completes hi
    rw [run_succ_of_step (M := core) ht]
    exact ih (stepKeepsInvariants s t hi ht)

/-- Settles O49: the invariants hold at the start and along every run. -/
theorem runsFromResetSatisfyInvariants : Obligations.RunsFromResetSatisfyInvariants :=
  fun _ x l c hl => run_keeps_inv c (boot_inv hl x l)

/-! ### The widths of the counters (R35) -/

/-- Every code that is not reserved is one of the six phases (R70, R71). -/
theorem phase_of_not_reserved {r : Regs} (h : r.phaseNotReserved) :
    r.phase = Phase.adv ∨ r.phase = Phase.wait ∨ r.inFrame := by
  obtain ⟨i, hd⟩ := decodePhase_of_not_reserved h
  obtain ⟨h, -⟩ | ⟨h, -⟩ | ⟨h, -⟩ | ⟨h, -⟩ | ⟨h, -⟩ | ⟨h, -⟩ := decodePhase_ok hd
  all_goals simp [Regs.inFrame, h]

theorem hcnt_lt_of_inv {p : Params} {r : Regs} (hi : r.Inv p) : r.hcnt < p.halfCyc := by
  obtain ⟨-, -, ⟨hh, -⟩, -⟩ := hi
  exact hh

/-- The tick counter's bound (R141). -/
theorem tcnt_le_of_inv {p : Params} {r : Regs} (hi : r.Inv p) : r.tcnt ≤ max (18 * p.halfCyc) (p.tickCyc - 1) := by
  have hslots : 2 * p.halfCyc * (7 - r.bitidx.toNat) ≤ 2 * p.halfCyc * 7 := Nat.mul_le_mul_left _ (Nat.sub_le _ _)
  obtain ⟨-, -, ⟨hh, -⟩, -, -, htick, hres, -⟩ := hi
  obtain ⟨hadv, hshLo, hshHi, hltHi, hltLo, hwait⟩ := htick
  obtain hp | hp | hp | hp | hp | hp := phase_of_not_reserved hres
  · rw [hadv hp]
    exact Nat.zero_le _
  · exact le_max_of_le_right (hwait hp).2
  all_goals apply le_max_of_le_left
  · rw [hshLo hp]
    omega
  · rw [hshHi hp]
    omega
  · rw [hltHi hp]
    omega
  · rw [hltLo hp]
    omega

/-- Settles O51: `clog` is enough bits for each counter's bound. -/
theorem countersFitTheirWidths : Obligations.CountersFitTheirWidths := by
  intro s hi
  obtain ⟨-, -, hregs⟩ := (inv_iff s).mp hi
  constructor
  · calc s.regs.hcnt < s.params.halfCyc := hcnt_lt_of_inv hregs
      _ ≤ 2 ^ Nat.clog 2 s.params.halfCyc := Nat.le_pow_clog Nat.one_lt_two _
      _ ≤ 2 ^ max 1 (Nat.clog 2 s.params.halfCyc) := Nat.pow_le_pow_right Nat.two_pos (le_max_right _ _)
  · calc s.regs.tcnt < max (18 * s.params.halfCyc) (s.params.tickCyc - 1) + 1 := Nat.lt_succ_of_le (tcnt_le_of_inv hregs)
      _ ≤ _ := Nat.le_pow_clog Nat.one_lt_two _

end Sys2Proof.Machine
end

section
/-! PROOFS. The receiver and the lines (20_memory.md): what each edge does to the shift register, how a frame fills it, and the
lines and outputs over a whole frame. -/

namespace Sys2Proof.Machine

/-! ### The receiver across one step (R54, R56, R57, R183) -/

@[simp] theorem applyReset_rx (s : State) : s.applyReset.rx = s.rx := react_reset _ _

theorem rises_iff {a b : Bool} : rises a b = true ↔ a = false ∧ b = true := by
  simp [rises]

/-- Settles O13: the reset edge is one that raises no line. -/
theorem resetReachesNoReceiver : Obligations.ResetReachesNoReceiver :=
  fun s hl hr => ⟨s.applyReset, step_of_reset hl hr, rfl, applyReset_rx s⟩

/-- Every step that answers a next state, a reset included, shows the receiver the lines of its two cycles. -/
theorem step_rx {s t : State} (h : step s = .next t) : t.rx = s.rx.react s.regs t.regs := by
  obtain ⟨-, ⟨-, rfl⟩ | ⟨-, -, -, -, i, -, hi⟩⟩ := step_next h
  · rfl
  · obtain ⟨r, rfl⟩ := exec_next hi
    rfl

/-- `shiftIn` in the words of R56: the byte one place up, the data bit at stage 0. -/
theorem shiftIn_eq (chain : Byte) (b : Bool) : shiftIn chain b = (chain <<< 1) ||| (if b then 0x01 else 0x00) := by
  cases b <;> rfl

/-- The only move that raises the shift clock leaves the data line and the latch clock alone (R56, R57, R120). -/
theorem RegsMove.lines_of_sclk_rise {p : Params} {r r' : Regs} (h : RegsMove p r r')
    (hrise : r.sclk = false ∧ r'.sclk = true) : r'.ser = r.ser ∧ r'.lclk = r.lclk := by
  cases h with
  | raiseShiftClock => exact ⟨rfl, rfl⟩
  | advance | nextBit | raiseLatch => cases hrise.2
  | countHalf | lowerLatch | endInTime | endOverrun | waitOn | waitEnd => cases hrise.1.symm.trans hrise.2

theorem step_lines_of_sclk_rise {s t : State} (h : step s = .next t)
    (hrise : s.regs.sclk = false ∧ t.regs.sclk = true) : t.regs.ser = s.regs.ser ∧ t.regs.lclk = s.regs.lclk := by
  cases hr : s.rstNow with
  | true =>
    rw [step_reset_regs hr h] at hrise
    cases hrise.2
  | false => exact (step_regsMove hr h).1.lines_of_sclk_rise hrise

/-- Settles O42: the receiver's reaction is R56's and R57's, and only `SH_LO` raises the shift clock. -/
theorem receiverFollowsTheLines : Obligations.ReceiverFollowsTheLines := by
  intro s t h
  refine ⟨?_, fun hs => (step_lines_of_sclk_rise h hs).1, ?_, fun ⟨hs, hlow, hhigh⟩ => ?_⟩
  · rw [step_rx h, Receiver.react]
    simp only [rises_iff, shiftIn_eq]
    rfl
  · rw [step_rx h, Receiver.react]
    simp only [rises_iff]
    rfl
  · have hkept : t.regs.lclk = s.regs.lclk := (step_lines_of_sclk_rise h hs).2
    cases hlow.symm.trans (hkept.symm.trans hhigh)

/-! ### The receiver in step with the frame, phase by phase (R60) -/

section
variable {s : State}

theorem receiverInStep_shLo_iff (h : s.regs.phase = Phase.shLo) :
    s.receiverInStep ↔
      s.rx.chain.toNat % 2 ^ (7 - s.regs.bitidx.toNat) = s.regs.pat.toNat / 2 ^ (s.regs.bitidx.toNat + 1) := by
  simp [State.receiverInStep, h, Phase.shLo, Phase.shHi, Phase.ltHi, Phase.ltLo, Phase.wait]

theorem receiverInStep_shHi_iff (h : s.regs.phase = Phase.shHi) :
    s.receiverInStep ↔
      s.rx.chain.toNat % 2 ^ (8 - s.regs.bitidx.toNat) = s.regs.pat.toNat / 2 ^ s.regs.bitidx.toNat := by
  simp [State.receiverInStep, h, Phase.shLo, Phase.shHi, Phase.ltHi, Phase.ltLo, Phase.wait]

/-- From the latch to the end of the tick. -/
theorem receiverInStep_latched_iff
    (h : s.regs.phase = Phase.ltHi ∨ s.regs.phase = Phase.ltLo ∨ s.regs.phase = Phase.wait) :
    s.receiverInStep ↔ s.rx.chain = s.regs.pat ∧ s.rx.out = s.regs.pat := by
  obtain h | h | h := h
  all_goals simp [State.receiverInStep, h, Phase.shLo, Phase.shHi, Phase.ltHi, Phase.ltLo, Phase.wait]

end

theorem regsInv_of_inv {s : State} (hi : s.Inv) : s.regs.Inv s.params := ((inv_iff s).mp hi).2.2

theorem Regs.Inv.inWidth {p : Params} {r : Regs} (hi : r.Inv p) : r.patternInWidth p := by
  obtain ⟨-, -, -, -, -, -, -, hwidth⟩ := hi
  exact hwidth

theorem Regs.Inv.latch_iff {p : Params} {r : Regs} (hi : r.Inv p) : r.lclk = true ↔ r.phase = Phase.ltHi := by
  obtain ⟨-, ⟨-, hlclk⟩, -⟩ := hi
  exact hlclk

/-- Outputs that hold the pattern light its bits, and none above the array (R59, R77). -/
theorem lit_eq_of_out {s : State} (h : s.regs.patternInWidth s.params) (hout : s.rx.out = s.regs.pat) (k : Nat) :
    s.lit k = s.regs.pat.getLsbD k ∧ (s.params.n ≤ k → s.rx.out.getLsbD k = false) := by
  have hdark : s.params.n ≤ k → s.regs.pat.getLsbD k = false := fun hk => by
    have hbit := congrArg (BitVec.getLsbD · (k - s.params.n)) h
    simpa [BitVec.getLsbD_ushiftRight, hk] using hbit
  rw [State.lit, hout]
  refine ⟨?_, hdark⟩
  by_cases hk : k < s.params.n
  · simp [hk]
  · simp [hdark (not_lt.mp hk)]

/-- Settles O45: from the latch on the outputs are the pattern, which is dark above the array. -/
theorem lightsShowPattern : Obligations.LightsShowPattern := by
  intro s k hi hstep hphase
  obtain ⟨-, hout⟩ := (receiverInStep_latched_iff hphase).mp hstep
  exact lit_eq_of_out (regsInv_of_inv hi).inWidth hout k

/-! ### Every step keeps the receiver in step -/

/-- The chain with the new bit below it, cut to its eight stages. -/
theorem shiftIn_eq_concat (chain : Byte) (b : Bool) : shiftIn chain b = (chain.concat b).setWidth 8 := by
  ext i hi
  cases i with
  | zero => simp [shiftIn, BitVec.getElem_concat]
  | succ i =>
    have hlow : i < 8 := Nat.lt_of_succ_lt hi
    simp [shiftIn, BitVec.getLsbD_eq_getElem hlow]

theorem shiftIn_toNat (chain : Byte) (b : Bool) : (shiftIn chain b).toNat = (2 * chain.toNat + b.toNat) % 256 := by
  rw [shiftIn_eq_concat, BitVec.toNat_setWidth, BitVec.toNat_concat, Nat.mul_comm]

/-- One shift: the low `m` stages and the new bit are the low `m + 1` stages after it. -/
theorem shiftIn_mod (chain : Byte) (b : Bool) {m : Nat} (hm : m ≤ 7) :
    (shiftIn chain b).toNat % 2 ^ (m + 1) = 2 * (chain.toNat % 2 ^ m) + b.toNat := by
  have hb : b.toNat < 2 := b.toNat_lt
  rw [shiftIn_toNat, Nat.mod_mod_of_dvd _ (Nat.pow_dvd_pow 2 (show m + 1 ≤ 8 by omega)), Nat.pow_succ', Nat.mod_mul,
    show (2 * chain.toNat + b.toNat) / 2 = chain.toNat by omega]
  omega

/-- The bits of the pattern from `k` up are those above `k` with bit `k` below them. -/
theorem toNat_div_two_pow (pat : Byte) (k : Nat) :
    pat.toNat / 2 ^ k = 2 * (pat.toNat / 2 ^ (k + 1)) + (pat.getLsbD k).toNat := by
  rw [Nat.pow_succ, ← Nat.div_div_eq_div_mul, BitVec.getLsbD, Nat.toNat_testBit]
  omega

section
variable {s : State} {r' : Regs}

/-- The rising shift clock adds the bit on the data line to those already in the chain (R56). -/
theorem receiverInStep_raiseShiftClock (hi : s.regs.Inv s.params) (hs : s.receiverInStep)
    (hphase : s.regs.phase = Phase.shLo) :
    (s.commit { s.regs with hcnt := 0, sclk := true, phase := Phase.shHi, tcnt := s.regs.tcnt + 1 }).receiverInStep := by
  obtain ⟨-, ⟨hsclk, -⟩, -, -, hser, -⟩ := (regsInv_shLo_iff hphase).mp hi
  have hk : s.regs.bitidx.toNat < 8 := s.regs.bitidx.isLt
  refine (receiverInStep_shHi_iff rfl).mpr ?_
  calc (if rises s.regs.sclk true then shiftIn s.rx.chain s.regs.ser else s.rx.chain).toNat
        % 2 ^ (8 - s.regs.bitidx.toNat)
      = (shiftIn s.rx.chain s.regs.ser).toNat % 2 ^ (7 - s.regs.bitidx.toNat + 1) := by
        rw [if_pos (rises_iff.mpr ⟨hsclk, rfl⟩), show 8 - s.regs.bitidx.toNat = 7 - s.regs.bitidx.toNat + 1 by omega]
    _ = 2 * (s.rx.chain.toNat % 2 ^ (7 - s.regs.bitidx.toNat)) + s.regs.ser.toNat := shiftIn_mod _ _ (by omega)
    _ = 2 * (s.regs.pat.toNat / 2 ^ (s.regs.bitidx.toNat + 1)) + (s.regs.pat.getLsbD s.regs.bitidx.toNat).toNat := by
        rw [(receiverInStep_shLo_iff hphase).mp hs, hser, dataBit]
    _ = s.regs.pat.toNat / 2 ^ s.regs.bitidx.toNat := (toNat_div_two_pow _ _).symm

/-- The rising latch clock finds all eight bits in the chain and copies them to the outputs (R57, R60). -/
theorem receiverInStep_raiseLatch (hi : s.regs.Inv s.params) (hs : s.receiverInStep)
    (hphase : s.regs.phase = Phase.shHi) (hbit : s.regs.bitidx.toNat = 0) :
    (s.commit { s.regs with
      hcnt := 0, sclk := false, lclk := true, phase := Phase.ltHi, tcnt := s.regs.tcnt + 1 }).receiverInStep := by
  obtain ⟨-, ⟨-, hlclk⟩, -⟩ := (regsInv_shHi_iff hphase).mp hi
  have hchain : s.rx.chain = s.regs.pat := by
    have h := (receiverInStep_shHi_iff hphase).mp hs
    rw [hbit, Nat.pow_zero, Nat.div_one, Nat.mod_eq_of_lt s.rx.chain.isLt] at h
    exact BitVec.eq_of_toNat_eq h
  refine (receiverInStep_latched_iff (.inl rfl)).mpr ?_
  simp [Receiver.react, rises, hlclk, hchain]

/-- Each move keeps the receiver in step: a move that raises no clock line leaves the receiver as it is, and says the same of it
where the phase and the slot are the same. -/
theorem RegsMove.keeps_receiverInStep (hi : s.regs.Inv s.params) (hs : s.receiverInStep)
    (h : RegsMove s.params s.regs r') : (s.commit r').receiverInStep := by
  cases h with
  | advance => exact (receiverInStep_shLo_iff rfl).mpr ((Nat.mod_one _).trans (Nat.div_eq_of_lt (BitVec.isLt _)).symm)
  | countHalf | waitOn => simpa [State.receiverInStep, Receiver.react] using hs
  | raiseShiftClock hphase => exact receiverInStep_raiseShiftClock hi hs hphase
  | nextBit hphase hlast hbit =>
    have hsent := (receiverInStep_shHi_iff hphase).mp hs
    have hslot : 8 - s.regs.bitidx.toNat = 7 - (s.regs.bitidx.toNat - 1) := by omega
    refine (receiverInStep_shLo_iff rfl).mpr ?_
    rw [commit_regs, toNat_sub_one hbit, Nat.sub_add_cancel hbit, ← hslot]
    simpa [Receiver.react] using hsent
  | raiseLatch hphase hlast hbit => exact receiverInStep_raiseLatch hi hs hphase hbit
  | lowerLatch hphase =>
    refine (receiverInStep_latched_iff (.inr (.inl rfl))).mpr ?_
    simpa [Receiver.react] using (receiverInStep_latched_iff (.inl hphase)).mp hs
  | endInTime hphase =>
    refine (receiverInStep_latched_iff (.inr (.inr rfl))).mpr ?_
    simpa [Receiver.react] using (receiverInStep_latched_iff (.inr (.inl hphase))).mp hs
  | endOverrun | waitEnd => exact receiverInStep_of_adv rfl

end

/-- Settles O50: a reset begins no frame, and every other step makes a move. -/
theorem stepKeepsReceiverInStep : Obligations.StepKeepsReceiverInStep := by
  intro s t hi hs h
  cases hr : s.rstNow with
  | true => exact receiverInStep_of_adv (by rw [step_reset_regs hr h, reset_phase])
  | false =>
    obtain ⟨hmove, ht⟩ := step_regsMove hr h
    rw [ht]
    exact hmove.keeps_receiverInStep (regsInv_of_inv hi) hs

/-! ### The lines where the invariants hold (R55) -/

section
variable {h c : Nat} {pat : Byte}

/-- The table of R55 in cycle `c` of the slot that sends bit `k`. -/
theorem frameLines_slot {k : Nat} (hk : k ≤ 7) (hc : c < 2 * h) :
    frameLines h pat (1 + 2 * h * (7 - k) + c) = (pat.getLsbD k, decide (h ≤ c), false) := by
  have hslots : 2 * h * (7 - k) ≤ 2 * h * 7 := Nat.mul_le_mul_left _ (Nat.sub_le _ _)
  have hcycle : 1 + 2 * h * (7 - k) + c - 1 = 2 * h * (7 - k) + c := by omega
  have hslot : (2 * h * (7 - k) + c) / (2 * h) = 7 - k := by
    rw [Nat.mul_add_div (by omega), Nat.div_eq_of_lt hc, Nat.add_zero]
  rw [frameLines, if_pos (by omega), hcycle, hslot, Nat.mul_add_mod, Nat.mod_eq_of_lt hc, Nat.sub_sub_self hk]

/-- The table of R55 in cycle `c` of the latch. -/
theorem frameLines_latch : frameLines h pat (1 + 16 * h + c) = (pat.getLsbD 0, false, decide (c < h)) := by
  rw [frameLines, if_neg (by omega), decide_eq_decide.mpr (show 1 + 16 * h + c ≤ 17 * h ↔ c < h by omega)]

end

/-- In a frame the phase, the slot and the half-period count are the tick counter read as R55 does, so the lines are the
table's. -/
theorem lines_eq_frameLines {p : Params} {r : Regs} (hi : r.Inv p) (hphase : r.inFrame) :
    (r.ser, r.sclk, r.lclk) = frameLines p.halfCyc r.pat r.tcnt := by
  have hk : r.bitidx.toNat ≤ 7 := Nat.le_of_lt_succ r.bitidx.isLt
  obtain hp | hp | hp | hp := hphase
  · obtain ⟨-, ⟨hsc, hlc⟩, hh, -, hser, htick, -⟩ := (regsInv_shLo_iff hp).mp hi
    rw [htick, frameLines_slot hk (by omega), hser, hsc, hlc, decide_eq_false (not_le.mpr hh), dataBit]
  · obtain ⟨-, ⟨hsc, hlc⟩, hh, -, hser, htick, -⟩ := (regsInv_shHi_iff hp).mp hi
    rw [htick, Nat.add_assoc, frameLines_slot hk (by omega), hser, hsc, hlc, decide_eq_true (Nat.le_add_right _ _),
      dataBit]
  · obtain ⟨-, ⟨hsc, hlc⟩, hh, -, ⟨hser, -⟩, htick, -⟩ := (regsInv_ltHi_iff hp).mp hi
    rw [htick, frameLines_latch, hser, hsc, hlc, decide_eq_true hh]
    rfl
  · obtain ⟨-, ⟨hsc, hlc⟩, hh, -, ⟨hser, -⟩, htick, -⟩ := (regsInv_ltLo_iff hp).mp hi
    rw [htick, show 1 + 17 * p.halfCyc + r.hcnt = 1 + 16 * p.halfCyc + (p.halfCyc + r.hcnt) by omega, frameLines_latch,
      hser, hsc, hlc, decide_eq_false (by omega)]
    rfl

/-- Up to cycle `16H` of the tick no latch has come. -/
theorem lclk_low_of_shift {p : Params} {r : Regs} (hi : r.Inv p) (hphase : r.inFrame) (hj : r.tcnt ≤ 16 * p.halfCyc) :
    r.lclk = false :=
  calc r.lclk = (frameLines p.halfCyc r.pat r.tcnt).2.2 := congrArg (·.2.2) (lines_eq_frameLines hi hphase)
    _ = false := by rw [frameLines, if_pos hj]

/-- Cycle `16H + 1` of the tick is the latch's first. -/
theorem lclk_high_of_latch {p : Params} {r : Regs} (hi : r.Inv p) (hphase : r.inFrame)
    (hj : r.tcnt = 16 * p.halfCyc + 1) (hH : 1 ≤ p.halfCyc) : r.lclk = true :=
  calc r.lclk = (frameLines p.halfCyc r.pat r.tcnt).2.2 := congrArg (·.2.2) (lines_eq_frameLines hi hphase)
    _ = decide (r.tcnt ≤ 17 * p.halfCyc) := by rw [frameLines, if_neg (by omega)]
    _ = true := decide_eq_true (by omega)

/-! ### The cycles of a frame (R55, R84) -/

/-- Before cycle `18H` of a tick no move leaves the frame, and none writes the pattern. -/
theorem RegsMove.stays_inFrame {p : Params} {r r' : Regs} (hi : r.Inv p) (hphase : r.inFrame)
    (hj : r.tcnt < 18 * p.halfCyc) (h : RegsMove p r r') :
    r'.inFrame ∧ r'.tcnt = r.tcnt + 1 ∧ r'.pat = r.pat := by
  cases h with
  | countHalf => exact ⟨hphase, rfl, rfl⟩
  | raiseShiftClock => exact ⟨.inr (.inl rfl), rfl, rfl⟩
  | nextBit => exact ⟨.inl rfl, rfl, rfl⟩
  | raiseLatch => exact ⟨.inr (.inr (.inl rfl)), rfl, rfl⟩
  | lowerLatch => exact ⟨.inr (.inr (.inr rfl)), rfl, rfl⟩
  | endInTime hp hlast | endOverrun hp hlast =>
    obtain ⟨-, -, -, -, -, htick, -⟩ := (regsInv_ltLo_iff hp).mp hi
    omega
  | advance hp | waitOn hp | waitEnd hp =>
    rw [Regs.inFrame, hp] at hphase
    exact absurd hphase (by decide)

/-- In an `ADV` cycle the only move starts a frame. -/
theorem RegsMove.startFrame_of_adv {p : Params} {r r' : Regs} (h : RegsMove p r r') (hadv : r.phase = Phase.adv) :
    ∃ pos' dir', r' = startFrame p r pos' dir' := by
  cases h with
  | advance => exact ⟨_, _, rfl⟩
  | countHalf hp =>
    rw [Regs.inFrame, hadv] at hp
    exact absurd hp (by decide)
  | raiseShiftClock hp | nextBit hp | raiseLatch hp | lowerLatch hp | endInTime hp | endOverrun hp | waitOn hp
  | waitEnd hp => exact absurd (hadv.symm.trans hp) (by decide)

/-- `t` is cycle `j` of the tick whose `ADV` cycle is `s`, inside its frame: what a run through the frame keeps. The outputs are
those of `s` as long as no latch has come. -/
structure State.FrameCycle (s : State) (j : Nat) (t : State) : Prop where
  inv : t.Inv
  inStep : t.receiverInStep
  params : t.params = s.params
  rst : t.rst = s.rst.drop j
  inFrame : t.regs.inFrame
  tcnt : t.regs.tcnt = j
  pat : t.regs.pat = pattern s.params.n s.regs.pos s.regs.dir
  out : j ≤ 16 * s.params.halfCyc → t.rx.out = s.rx.out

theorem State.FrameCycle.lines {s t : State} {j : Nat} (h : s.FrameCycle j t) :
    (t.regs.ser, t.regs.sclk, t.regs.lclk) = frameLines s.params.halfCyc t.regs.pat j := by
  rw [lines_eq_frameLines (regsInv_of_inv h.inv) h.inFrame, h.params, h.tcnt]

/-- With the latch clock low after a step the outputs are as they were (R57). -/
theorem step_out_of_lclk_low {s t : State} (h : step s = .next t) (hlow : t.regs.lclk = false) :
    t.rx.out = s.rx.out := by
  rw [step_rx h, Receiver.react, hlow, rises_false, if_neg Bool.false_ne_true]

/-- Cycle 1: the step of the `ADV` cycle loads the pattern and starts the frame (R100). -/
theorem frameCycle_one {s t : State} (hi : s.Inv) (hadv : s.regs.phase = Phase.adv) (hr : s.rstNow = false)
    (h : step s = .next t) : s.FrameCycle 1 t := by
  obtain ⟨hparams, hrst, -⟩ := buildNeverChanges s t h
  obtain ⟨-, -, -, -, htcnt, -⟩ := (regsInv_adv_iff hadv).mp (regsInv_of_inv hi)
  obtain ⟨pos', dir', hregs⟩ := (step_regsMove hr h).1.startFrame_of_adv hadv
  exact {
    inv := stepKeepsInvariants s t hi h
    inStep := stepKeepsReceiverInStep s t hi (receiverInStep_of_adv hadv) h
    params := hparams
    rst := by rw [hrst, List.drop_one]
    inFrame := by rw [hregs]; exact .inl rfl
    tcnt := by rw [hregs, startFrame_tcnt, htcnt]
    pat := by rw [hregs, startFrame_pat]
    out := fun _ => step_out_of_lclk_low h (by rw [hregs, startFrame_lclk]) }

/-- From each cycle of the frame but its last the step goes to the next one. -/
theorem State.FrameCycle.succ {s t u : State} {j : Nat} (h : s.FrameCycle j t) (hj : j < 18 * s.params.halfCyc)
    (hr : t.rstNow = false) (hu : step t = .next u) : s.FrameCycle (j + 1) u := by
  obtain ⟨hparams, hrst, -⟩ := buildNeverChanges t u hu
  have hi : t.regs.Inv t.params := regsInv_of_inv h.inv
  have hbefore : t.regs.tcnt < 18 * t.params.halfCyc := by rwa [h.params, h.tcnt]
  obtain ⟨hframe, htcnt, hpat⟩ := (step_regsMove hr hu).1.stays_inFrame hi h.inFrame hbefore
  have hinv : u.Inv := stepKeepsInvariants t u h.inv hu
  exact {
    inv := hinv
    inStep := stepKeepsReceiverInStep t u h.inv h.inStep hu
    params := hparams.trans h.params
    rst := by rw [hrst, h.rst, List.tail_drop]
    inFrame := hframe
    tcnt := by rw [htcnt, h.tcnt]
    pat := hpat.trans h.pat
    out := fun hshift => by
      have hcycle : u.regs.tcnt ≤ 16 * u.params.halfCyc := by rwa [htcnt, h.tcnt, hparams, h.params]
      rw [step_out_of_lclk_low hu (lclk_low_of_shift (regsInv_of_inv hinv) hframe hcycle), h.out (by omega)] }

/-! ### Runs through a frame -/

/-- A run one step longer, by its last step. -/
theorem run_succ_of_run {M : Host.Core} {s t u : M.State} {k : Nat} (h : M.run k s = .next t) (hu : M.step t = .next u) :
    M.run (k + 1) s = .next u := by
  induction k generalizing s with
  | zero =>
    cases h
    rw [run_succ_of_step hu]
    rfl
  | succ k ih =>
    cases hs : M.step s with
    | next s' =>
      rw [run_succ_of_step hs] at h ⊢
      exact ih h
    | fault f => simp [Host.Core.run, hs] at h
    | refused w => simp [Host.Core.run, hs] at h

theorem rstNow_of_quietFor {s t : State} {j k : Nat} (hq : s.quietFor k) (hj : j < k) (ht : t.rst = s.rst.drop j) :
    t.rstNow = false := by
  rw [State.rstNow, ht, List.headD_eq_head?_getD, List.head?_drop]
  cases hb : s.rst[j]? with
  | none => rfl
  | some b => exact hq b (List.mem_of_getElem? (i := j) (by rw [List.getElem?_take_of_lt hj, hb]))

/-- While `rst` stays 0 the run from an `ADV` cycle goes through the cycles of the frame. -/
theorem run_frameCycle {s : State} (hi : s.Inv) (hadv : s.regs.phase = Phase.adv) {j k : Nat} (hq : s.quietFor k)
    (hk : j + 1 ≤ k) (hj : j + 1 ≤ 18 * s.params.halfCyc) :
    ∃ t, core.run (j + 1) s = .next t ∧ s.FrameCycle (j + 1) t := by
  induction j with
  | zero =>
    obtain ⟨t, ht⟩ := step_completes hi
    exact ⟨t, run_succ_of_run (M := core) rfl ht, frameCycle_one hi hadv (rstNow_of_quietFor hq hk rfl) ht⟩
  | succ j ih =>
    obtain ⟨t, hrun, ht⟩ := ih (by omega) (by omega)
    obtain ⟨u, hu⟩ := step_completes ht.inv
    exact ⟨u, run_succ_of_run (M := core) hrun hu, ht.succ hj (rstNow_of_quietFor hq hk ht.rst) hu⟩

/-- Settles O54: the run is in cycle `j` of the frame, where the lines are the table's. -/
theorem frameWaveform : Obligations.FrameWaveform := by
  intro s j hi hadv hj hq
  cases j with
  | zero =>
    obtain ⟨-, ⟨hsclk, hlclk⟩, -, -, htcnt, -⟩ := (regsInv_adv_iff hadv).mp (regsInv_of_inv hi)
    exact ⟨s, rfl, htcnt, by rw [if_pos rfl]; exact ⟨rfl, hsclk, hlclk⟩⟩
  | succ j =>
    obtain ⟨t, hrun, ht⟩ := run_frameCycle hi hadv hq le_rfl hj
    exact ⟨t, hrun, ht.tcnt, by rw [if_neg (Nat.succ_ne_zero j)]; exact ⟨ht.pat, ht.lines⟩⟩

/-- Settles O55: the latch clock is high first in cycle `16H + 1`, and a receiver in step then shows the pattern. -/
theorem latchShowsPatternAtLatency : Obligations.LatchShowsPatternAtLatency := by
  intro s hi hadv hq
  obtain ⟨hl, -, hregs⟩ := (inv_iff s).mp hi
  obtain ⟨-, -, hH, -⟩ := (legal_iff _).mp hl
  constructor
  · intro j hj
    cases j with
    | zero =>
      obtain ⟨-, ⟨-, hlclk⟩, -⟩ := (regsInv_adv_iff hadv).mp hregs
      exact ⟨s, rfl, rfl, hlclk⟩
    | succ j =>
      obtain ⟨t, hrun, ht⟩ := run_frameCycle (j := j) hi hadv hq (by omega) (by omega)
      have hlow := lclk_low_of_shift (regsInv_of_inv ht.inv) ht.inFrame (by rwa [ht.tcnt, ht.params])
      exact ⟨t, hrun, ht.out hj, hlow⟩
  · obtain ⟨t, hrun, ht⟩ := run_frameCycle (j := 16 * s.params.halfCyc) hi hadv hq le_rfl (by omega)
    have hi' : t.regs.Inv t.params := regsInv_of_inv ht.inv
    have hlatch : t.regs.lclk = true :=
      lclk_high_of_latch hi' ht.inFrame (by rw [ht.tcnt, ht.params]) (by rwa [ht.params])
    have hphase : t.regs.phase = Phase.ltHi := hi'.latch_iff.mp hlatch
    obtain ⟨-, hshown⟩ := (receiverInStep_latched_iff (.inl hphase)).mp ht.inStep
    exact ⟨t, hrun, hlatch, hshown.trans ht.pat⟩

end Sys2Proof.Machine
end

section
/-! PROOFS. The encoding (30_encoding.md): the decoder and the encoder of the two selectors, the advance key, the order of the
phases, and the cycles of one tick as the expansion of `TICK`. -/

namespace Sys2Proof.Machine

/-! ### The decoder and the encoder (R70, R74, R79, R85) -/

theorem encodeDecode (i : Instr) : Laws.EncodeDecode.Statement i := by
  cases i with
  | adv => exact Laws.EncodeDecode.adv
  | shLo => exact Laws.EncodeDecode.shLo
  | shHi => exact Laws.EncodeDecode.shHi
  | ltHi => exact Laws.EncodeDecode.ltHi
  | ltLo => exact Laws.EncodeDecode.ltLo
  | wait => exact Laws.EncodeDecode.wait
  | advIntUp => exact Laws.EncodeDecode.advIntUp
  | advIntDn => exact Laws.EncodeDecode.advIntDn
  | advUbRev => exact Laws.EncodeDecode.advUbRev
  | advUbBack => exact Laws.EncodeDecode.advUbBack
  | advLbFwd => exact Laws.EncodeDecode.advLbFwd
  | advLbRev => exact Laws.EncodeDecode.advLbRev

theorem decode_encode (i : Instr) : decode i.format (encode i) = .ok i := by
  obtain ⟨-, -, hd⟩ := encodeDecode i
  exact hd

/-- What a selector decodes is one of its own operations, under the encoder's code. -/
theorem format_and_encode_of_decode {f : Format} {c : Code} {i : Instr} (h : decode f c = .ok i) :
    i.format = f ∧ encode i = c := by
  cases f with
  | phase =>
    obtain ⟨rfl, rfl⟩ | ⟨rfl, rfl⟩ | ⟨rfl, rfl⟩ | ⟨rfl, rfl⟩ | ⟨rfl, rfl⟩ | ⟨rfl, rfl⟩ := decodePhase_ok h
    all_goals exact ⟨rfl, rfl⟩
  | advKey =>
    obtain ⟨rfl, rfl⟩ | ⟨rfl, rfl⟩ | ⟨rfl, rfl⟩ | ⟨rfl, rfl⟩ | ⟨rfl, rfl⟩ | ⟨rfl, rfl⟩ := decodeAdvKey_ok h
    all_goals exact ⟨rfl, rfl⟩

/-- Settles O1: the tables' codes are the encoder's. -/
theorem tableWordsDecode : Obligations.TableWordsDecode :=
  ⟨decode_encode .adv, decode_encode .shLo, decode_encode .shHi, decode_encode .ltHi, decode_encode .ltLo,
    decode_encode .wait, decode_encode .advIntUp, decode_encode .advUbBack, decode_encode .advLbRev⟩

/-- Settles O2: each direction is one of the two round trips. -/
theorem decodeAndEncodeAgree : Obligations.DecodeAndEncodeAgree := by
  intro f c i
  rw [Instr.wellFormed, decide_eq_true_iff]
  refine ⟨format_and_encode_of_decode, ?_⟩
  rintro ⟨rfl, rfl⟩
  exact decode_encode i

theorem decodeAdvKey_error_iff {c : Code} :
    decodeAdvKey c = .error .reservedAdvanceKey ↔ c = 0b110 ∨ c = 0b111 := by
  refine ⟨decodeAdvKey_error, ?_⟩
  rintro (rfl | rfl)
  all_goals rfl

/-- Settles O3: each decoder rejects the two codes its table does not list. -/
theorem reservedCodesRejected : Obligations.ReservedCodesRejected :=
  fun _ => ⟨decodePhase_error_iff.trans (and_iff_left rfl), decodeAdvKey_error_iff⟩

/-! ### The advance key (R78) -/

section
variable (p : Params) (r : Regs)

@[simp] theorem advKey_bit_two : (advKey p r).getLsbD 2 = atLower r := by
  simp only [advKey, BitVec.getLsbD_append]
  simp

@[simp] theorem advKey_bit_one : (advKey p r).getLsbD 1 = atUpper p r := by
  simp only [advKey, BitVec.getLsbD_append]
  simp

@[simp] theorem advKey_bit_zero : (advKey p r).getLsbD 0 = r.dir.bit := by
  simp only [advKey, BitVec.getLsbD_append]
  simp

end

theorem not_both_bounds_of_legal {p : Params} (hl : p.legal = true) (r : Regs) :
    (atLower r && atUpper p r) = false := by
  obtain ⟨hn, -⟩ := (legal_iff p).mp hl
  rw [Bool.and_eq_false_iff, ← Bool.not_eq_true, ← Bool.not_eq_true, atLower_iff, atUpper_iff]
  omega

/-- Settles O14: the three fields are the two bounds and the direction's bit. -/
theorem advanceKeyFields : Obligations.AdvanceKeyFields := by
  intro p r
  rw [advKey_bit_two, advKey_bit_one, advKey_bit_zero]
  refine ⟨decide_eq_decide.mpr ?_, decide_eq_decide.mpr ?_, ?_, fun hl => not_both_bounds_of_legal hl r⟩
  · exact BitVec.toNat_inj (y := 0)
  · omega
  · rw [Bool.eq_iff_iff, dir_bit_eq_true, decide_eq_true_iff]

/-! ### Advance cases that are not selected (R79, R101-R106, R161) -/

theorem advanceAs_refused {key : Code} {s : State} {pos' : Code} {dir' : Dir}
    (h : s.params.n ≤ s.regs.pos.toNat ∨ advKey s.params s.regs ≠ key) :
    advanceAs key s pos' dir' = .refused .caseNotSelected :=
  if_neg fun ⟨hpos, hkey⟩ => h.elim (not_le.mpr hpos) (absurd hkey)

theorem exec_case_refused {i : Instr} {s : State} (hi : i.format = .advKey)
    (h : s.params.n ≤ s.regs.pos.toNat ∨ advKey s.params s.regs ≠ encode i) :
    exec i s = .refused .caseNotSelected := by
  cases i with
  | adv | shLo | shHi | ltHi | ltLo | wait => cases hi
  | advIntUp | advIntDn | advUbRev | advUbBack | advLbFwd | advLbRev => exact advanceAs_refused h

/-- A reserved key is no case's. -/
theorem ne_encode_of_decodeAdvKey_error {c : Code} {e : DecodeError} {i : Instr} (hi : i.format = .advKey)
    (h : decodeAdvKey c = .error e) : c ≠ encode i := by
  rintro rfl
  have hd := decode_encode i
  rw [hi] at hd
  cases h.symm.trans hd

theorem decodeAdvKey_of_both_bounds {p : Params} {r : Regs} (hlb : atLower r = true) (hub : atUpper p r = true) :
    decodeAdvKey (advKey p r) = .error .reservedAdvanceKey := by
  rw [decodeAdvKey_error_iff]
  cases hd : r.dir.bit with
  | false => exact .inl ((advKey_eq_iff p r true true false).mpr ⟨hlb, hub, hd⟩)
  | true => exact .inr ((advKey_eq_iff p r true true true).mpr ⟨hlb, hub, hd⟩)

/-- Settles O23: both bounds hold, so the key is reserved and no case's. -/
theorem bothBoundsFault : Obligations.BothBoundsFault := by
  intro s hn hpos
  have hkey : decodeAdvKey (advKey s.params s.regs) = .error .reservedAdvanceKey :=
    decodeAdvKey_of_both_bounds (by simp [hpos]) (by simp [hpos, hn])
  refine ⟨?_, fun i hi => exec_case_refused hi (.inr (ne_encode_of_decodeAdvKey_error hi hkey))⟩
  change execAdv s = _
  rw [execAdv, hkey]

/-! ### The order of the phases (R72) -/

/-- Settles O36: each move leaves one phase for the one the order gives, under the condition the order gives. -/
theorem phaseOrder : Obligations.PhaseOrder := by
  intro s t hr h
  obtain ⟨hmove, -⟩ := step_regsMove hr h
  generalize t.regs = r' at hmove ⊢
  cases hmove with
  | advance hphase => simp [hphase, Phase.adv, Phase.shLo]
  | countHalf hphase hmore =>
    obtain hphase | hphase | hphase | hphase := hphase
    all_goals simp [hphase, hmore, Phase.shLo, Phase.shHi, Phase.ltHi, Phase.ltLo]
  | raiseShiftClock hphase hlast => simp [hphase, hlast, Phase.shHi, Phase.shLo]
  | nextBit hphase hlast hbit =>
    have hb : s.regs.bitidx ≠ 0#3 := fun h => by simp [h] at hbit
    have hnext : (s.regs.bitidx - 1).toNat + 1 = s.regs.bitidx.toNat := by
      rw [toNat_sub_one hbit]
      omega
    simpa [hphase, hlast, Phase.shHi, Phase.shLo, hb] using hnext
  | raiseLatch hphase hlast hbit =>
    have hb : s.regs.bitidx = 0 := BitVec.eq_of_toNat_eq hbit
    simp [hphase, hlast, Phase.shHi, Phase.ltHi, hb]
  | lowerLatch hphase hlast => simp [hphase, hlast, Phase.ltHi, Phase.ltLo]
  | endInTime hphase hlast htime => simp [hphase, hlast, htime, Phase.wait, Phase.ltLo]
  | endOverrun hphase hlast htime => simp [hphase, hlast, htime, Phase.adv, Phase.ltLo]
  | waitOn hphase htime => simp [hphase, htime, Phase.wait]
  | waitEnd hphase htime => simp [hphase, htime, Phase.wait, Phase.adv]

/-! ### Where a cycle stands in the expansion of `TICK` (R73, R84) -/

/-- A list has the element of a block of it at every place inside the block. -/
theorem getElem?_block {α : Type} {l pre post : List α} {n c : Nat} {a : α}
    (hl : l = pre ++ (List.replicate n a ++ post)) (hc : c < n) : l[pre.length + c]? = some a := by
  rw [hl, List.getElem?_append_right (Nat.le_add_right _ _), Nat.add_sub_cancel_left,
    List.getElem?_append_left (by rwa [List.length_replicate]), List.getElem?_replicate_of_lt hc]

theorem shiftBitOp_length (p : Params) (k : Nat) : (shiftBitOp p k).length = 2 * p.halfCyc := by
  rw [shiftBitOp, List.length_append, List.length_replicate, List.length_replicate, Nat.two_mul]

theorem shiftBits_length (p : Params) (l : List Nat) :
    ((l.map (shiftBitOp p)).flatten).length = 2 * p.halfCyc * l.length := by
  induction l with
  | nil => rfl
  | cons k l ih =>
    rw [List.map_cons, List.flatten_cons, List.length_append, ih, shiftBitOp_length, List.length_cons, Nat.mul_succ,
      Nat.add_comm]

theorem frameShift_length (p : Params) :
    (([7, 6, 5, 4, 3, 2, 1, 0].map (shiftBitOp p)).flatten).length = 16 * p.halfCyc :=
  (shiftBits_length p _).trans (show 2 * p.halfCyc * 8 = 16 * p.halfCyc by omega)

theorem frameOp_length (p : Params) : (frameOp p).length = 18 * p.halfCyc := by
  rw [frameOp, List.length_append, frameShift_length, latchOp, List.length_append, List.length_replicate,
    List.length_replicate]
  omega

theorem tickOp_length (p : Params) : (tickOp p).length = p.interval := by
  rw [tickOp, List.length_cons, List.length_append, frameOp_length, List.length_replicate, Params.interval,
    Params.waitCyc, Params.work]
  omega

/-- A frame sends bit `k` after the `7 - k` bits above it (R84). -/
theorem bitOrder_split {k : Nat} (hk : k < 8) :
    ∃ above below, above.length = 7 - k ∧ [7, 6, 5, 4, 3, 2, 1, 0] = above ++ k :: below := by
  have hsplit : ∀ k < 8, ([7, 6, 5, 4, 3, 2, 1, 0].take (7 - k)).length = 7 - k ∧
      [7, 6, 5, 4, 3, 2, 1, 0] = [7, 6, 5, 4, 3, 2, 1, 0].take (7 - k) ++ k :: [7, 6, 5, 4, 3, 2, 1, 0].drop (8 - k) := by
    decide
  exact ⟨_, _, hsplit k hk⟩

/-- The slot of bit `k` in a tick comes after the `ADV` cycle and the slots of the bits above it. -/
theorem tickOp_slot (p : Params) {k : Nat} (hk : k < 8) :
    ∃ pre post, pre.length = 1 + 2 * p.halfCyc * (7 - k) ∧ tickOp p = pre ++ (shiftBitOp p k ++ post) := by
  obtain ⟨above, below, habove, hbits⟩ := bitOrder_split hk
  refine ⟨(.adv, none) :: (above.map (shiftBitOp p)).flatten,
    (below.map (shiftBitOp p)).flatten ++ (latchOp p ++ List.replicate p.waitCyc (.wait, none)), ?_, ?_⟩
  · rw [List.length_cons, shiftBits_length, habove, Nat.add_comm]
  · simp [tickOp, frameOp, hbits]

theorem tickOp_latch (p : Params) :
    ∃ pre, pre.length = 1 + 16 * p.halfCyc ∧ tickOp p = pre ++ (latchOp p ++ List.replicate p.waitCyc (.wait, none)) := by
  refine ⟨(.adv, none) :: ([7, 6, 5, 4, 3, 2, 1, 0].map (shiftBitOp p)).flatten, ?_, ?_⟩
  · rw [List.length_cons, frameShift_length, Nat.add_comm]
  · simp [tickOp, frameOp]

section
variable {p : Params} {k c : Nat}

theorem tickOp_shLo (hk : k < 8) (hc : c < p.halfCyc) :
    (tickOp p)[1 + 2 * p.halfCyc * (7 - k) + c]? = some (.shLo, some k) := by
  obtain ⟨pre, post, hpre, hslot⟩ := tickOp_slot p hk
  rw [shiftBitOp, List.append_assoc] at hslot
  rw [← hpre]
  exact getElem?_block hslot hc

theorem tickOp_shHi (hk : k < 8) (hc : c < p.halfCyc) :
    (tickOp p)[1 + 2 * p.halfCyc * (7 - k) + p.halfCyc + c]? = some (.shHi, some k) := by
  obtain ⟨pre, post, hpre, hslot⟩ := tickOp_slot p hk
  rw [shiftBitOp, List.append_assoc, ← List.append_assoc] at hslot
  have hat := getElem?_block hslot hc
  rwa [List.length_append, List.length_replicate, hpre] at hat

theorem tickOp_ltHi (hc : c < p.halfCyc) : (tickOp p)[1 + 16 * p.halfCyc + c]? = some (.ltHi, none) := by
  obtain ⟨pre, hpre, hlatch⟩ := tickOp_latch p
  rw [latchOp, List.append_assoc] at hlatch
  rw [← hpre]
  exact getElem?_block hlatch hc

theorem tickOp_ltLo (hc : c < p.halfCyc) : (tickOp p)[1 + 17 * p.halfCyc + c]? = some (.ltLo, none) := by
  obtain ⟨pre, hpre, hlatch⟩ := tickOp_latch p
  rw [latchOp, List.append_assoc, ← List.append_assoc] at hlatch
  have hat := getElem?_block hlatch hc
  rwa [List.length_append, List.length_replicate, hpre, Nat.add_assoc 1, ← Nat.succ_mul] at hat

theorem tickOp_wait (hc : c < p.waitCyc) : (tickOp p)[p.work + c]? = some (.wait, none) := by
  have htick : tickOp p = (.adv, none) :: frameOp p ++ (List.replicate p.waitCyc (.wait, none) ++ []) := by
    rw [List.append_nil]
    rfl
  have hat := getElem?_block htick hc
  rwa [List.length_cons, frameOp_length, Nat.add_comm _ 1] at hat

end

theorem phaseCycle_of_decoded {s : State} {i : Instr} (hd : decodePhase s.regs.phase = .ok i) :
    s.phaseCycle = some (i, if i = .shLo ∨ i = .shHi then some s.regs.bitidx.toNat else none) := by
  rw [State.phaseCycle, hd]

/-- Where the invariants hold the tick counter is the place of the cycle in the expansion of `TICK`: I6 of R37 read against R84. -/
theorem tickOp_at_tcnt {s : State} (hi : s.Inv) : (tickOp s.params)[s.regs.tcnt]? = s.phaseCycle := by
  obtain ⟨hl, -, -, -, ⟨hh, -⟩, -, -, ⟨hadv, hshLo, hshHi, hltHi, hltLo, hwait⟩, hres, -⟩ := hi
  have hk : s.regs.bitidx.toNat < 8 := s.regs.bitidx.isLt
  obtain ⟨i, hd⟩ := decodePhase_of_not_reserved hres
  rw [phaseCycle_of_decoded hd]
  obtain ⟨hp, rfl⟩ | ⟨hp, rfl⟩ | ⟨hp, rfl⟩ | ⟨hp, rfl⟩ | ⟨hp, rfl⟩ | ⟨hp, rfl⟩ := decodePhase_ok hd
  · rw [hadv hp]
    rfl
  · rw [hshLo hp]
    exact tickOp_shLo hk hh
  · rw [hshHi hp]
    exact tickOp_shHi hk hh
  · rw [hltHi hp]
    exact tickOp_ltHi hh
  · rw [hltLo hp]
    exact tickOp_ltLo hh
  · obtain ⟨hwork, hlast⟩ := hwait hp
    obtain ⟨c, hc⟩ := Nat.exists_eq_add_of_le hwork
    obtain ⟨-, -, -, hT⟩ := (legal_iff _).mp hl
    have hplace : c < s.params.waitCyc := by
      rw [Params.waitCyc]
      omega
    rw [hc]
    exact tickOp_wait hplace

/-- Before the last cycle of a tick every move counts one more cycle: a frame overruns and a wait ends only in the last one
(R141, R145). -/
theorem RegsMove.tcnt_succ {p : Params} {r r' : Regs} (hi : r.Inv p) (hj : r.tcnt + 1 < p.interval)
    (h : RegsMove p r r') : r'.tcnt = r.tcnt + 1 := by
  rw [Params.interval, Params.work] at hj
  cases h with
  | advance | countHalf | raiseShiftClock | nextBit | raiseLatch | lowerLatch | endInTime | waitOn => rfl
  | endOverrun hp hlast htime =>
    obtain ⟨-, -, -, -, -, htick, -⟩ := (regsInv_ltLo_iff hp).mp hi
    omega
  | waitEnd hp htime =>
    obtain ⟨-, -, -, -, -, ⟨hwork, -⟩, -⟩ := (regsInv_wait_iff hp).mp hi
    rw [Params.work] at hwork
    omega

theorem quietFor_succ {s t : State} {k : Nat} (hq : s.quietFor (k + 1)) (ht : t.rst = s.rst.tail) :
    s.rstNow = false ∧ t.quietFor k := by
  refine ⟨rstNow_of_quietFor hq k.succ_pos rfl, fun b hb => hq b (List.mem_of_mem_tail ?_)⟩
  rwa [List.tail_take_eq_take_tail, Nat.add_sub_cancel, ← ht]

/-- A history inside one tick shows the places of the expansion of `TICK` from that of its first cycle on. -/
theorem history_phaseCycles {k : Nat} {s : State} (hi : s.Inv) (hk : s.regs.tcnt + k < s.params.interval)
    (hq : s.quietFor k) :
    ∃ cycles, State.history k s = .next cycles ∧
      cycles.map State.phaseCycle = (List.range' s.regs.tcnt (k + 1)).map ((tickOp s.params)[·]?) := by
  induction k generalizing s with
  | zero =>
    have hl : s.params.legal = true := ((inv_iff s).mp hi).1
    exact ⟨[s], if_pos hl, congrArg ([·]) (tickOp_at_tcnt hi).symm⟩
  | succ k ih =>
    obtain ⟨t, ht⟩ := step_completes hi
    obtain ⟨hparams, hrst, -⟩ := buildNeverChanges s t ht
    obtain ⟨hr, hq'⟩ := quietFor_succ hq hrst
    have htcnt := (step_regsMove hr ht).1.tcnt_succ (regsInv_of_inv hi) (by omega)
    obtain ⟨later, hlater, hmap⟩ := ih (stepKeepsInvariants s t hi ht) (by rw [htcnt, hparams]; omega) hq'
    refine ⟨s :: later, history_succ (nextCycle_of_next ht) hlater, ?_⟩
    rw [List.map_cons, hmap, ← tickOp_at_tcnt hi, htcnt, hparams]
    rfl

/-- The places of a list, all of them in order, are the list. -/
theorem map_getElem?_range' {α : Type} (l : List α) : (List.range' 0 l.length).map (l[·]?) = l.map some :=
  List.ext_getElem (by simp) fun j _ _ => by simp

theorem interval_pos (p : Params) : 0 < p.interval := by
  rw [Params.interval, Params.work]
  omega

/-- Settles O57: the history from place 0, of as many cycles as the expansion has places. -/
theorem tickIsItsExpansion : Obligations.TickIsItsExpansion := by
  intro s hi hadv hq
  have htcnt : s.regs.tcnt = 0 := by
    obtain ⟨-, -, -, -, htcnt, -⟩ := (regsInv_adv_iff hadv).mp (regsInv_of_inv hi)
    exact htcnt
  have hpos := interval_pos s.params
  obtain ⟨cycles, hcycles, hmap⟩ := history_phaseCycles hi (by omega) hq
  refine ⟨cycles, hcycles, ?_⟩
  rw [hmap, htcnt, Nat.sub_add_cancel hpos, ← tickOp_length, map_getElem?_range']

end Sys2Proof.Machine
end

section
/-! PROOFS. The sequencer (40_sequencer.md): the six advance cases, the pattern an advance loads, and the table of the sequence over
any number of ticks. -/

namespace Sys2Proof.Machine

/-! ### The pattern (R107, R108) -/

theorem getLsbD_oneBit {k j : Nat} (hk : k < 8) : (oneBit j).getLsbD k = true ↔ k = j := by
  simp [oneBit]
  omega

theorem getLsbD_guardBit {n k : Nat} {a : Int} (hk : k < 8) : (guardBit n a).getLsbD k = true ↔ a = k ∧ k < n := by
  unfold guardBit
  split_ifs with h
  · rw [getLsbD_oneBit hk]
    omega
  · simp
    omega

/-- The pattern bit by bit: the light at the position and, inside the array, the one ahead. -/
theorem getLsbD_pattern {n k : Nat} {pos : Code} {d : Dir} (hk : k < 8) :
    (pattern n pos d).getLsbD k = true ↔ k = pos.toNat ∨ adj pos d = k ∧ k < n := by
  rw [pattern, BitVec.getLsbD_or, Bool.or_eq_true, getLsbD_oneBit hk, getLsbD_guardBit hk]

/-- The two states at which an advance reverses: the bound ahead is reached (R101, R103). -/
abbrev atReversal (n : Nat) (pos : Code) (d : Dir) : Prop :=
  pos.toNat = 0 ∧ d = .desc ∨ pos.toNat + 1 = n ∧ d = .asc

theorem not_atReversal_up {n : Nat} {pos : Code} (hroom : pos.toNat + 1 < n) : ¬ atReversal n pos .asc := by
  rintro (⟨-, hdir⟩ | ⟨htop, -⟩)
  · cases hdir
  · omega

theorem not_atReversal_down {n : Nat} {pos : Code} (hroom : 0 < pos.toNat) : ¬ atReversal n pos .desc := by
  rintro (⟨hlow, -⟩ | ⟨-, hdir⟩)
  · omega
  · cases hdir

/-- The adjacent index leaves the array exactly where the advance reverses (R109). -/
theorem adj_outside_iff {n : Nat} {pos : Code} {d : Dir} (hpos : pos.toNat < n) :
    ¬ (0 ≤ adj pos d ∧ adj pos d ≤ n - 1) ↔ atReversal n pos d := by
  cases d with
  | asc =>
    simp [adj, atReversal]
    omega
  | desc =>
    simp [adj, atReversal]
    omega

section
variable {n : Nat} {pos : Code}

theorem pattern_reverse {d : Dir} (hpos : pos.toNat < n) (h : atReversal n pos d) :
    pattern n pos d = oneBit pos.toNat := by
  rw [pattern, guardBit, if_neg ((adj_outside_iff hpos).mpr h)]
  exact BitVec.or_zero

theorem pattern_up (hroom : pos.toNat + 1 < n) :
    pattern n pos .asc = oneBit pos.toNat ||| oneBit (pos.toNat + 1) := by
  rw [pattern, adj, guardBit_inside (by omega) (by omega)]
  rfl

theorem pattern_down (hpos : pos.toNat < n) (hroom : 0 < pos.toNat) :
    pattern n pos .desc = oneBit pos.toNat ||| oneBit (pos.toNat - 1) := by
  rw [pattern, adj, guardBit_inside (by omega) (by omega)]
  congr 2
  omega

end

/-- Settles O25: outside the array the clamped index is the position itself, whose bit is set already. -/
theorem guardMasksLikeClamp : Obligations.GuardMasksLikeClamp := by
  intro n pos d hn _ hpos
  refine ⟨fun _ => rfl, ?_, ?_⟩
  · change _ = oneBit pos.toNat ||| oneBit (max 0 (min (adj pos d) (n - 1))).toNat
    by_cases hin : 0 ≤ adj pos d ∧ adj pos d ≤ n - 1
    · rw [pattern, guardBit, if_pos hin, min_eq_left hin.2, max_eq_right hin.1]
    · have hrev := (adj_outside_iff hpos).mp hin
      have hclamp : (max 0 (min (adj pos d) (n - 1))).toNat = pos.toNat := by
        obtain ⟨hbound, rfl⟩ | ⟨hbound, rfl⟩ := hrev
        all_goals rw [adj]; omega
      rw [pattern_reverse hpos hrev, hclamp, BitVec.or_self]
  · rintro htop rfl
    have hadj : adj pos .asc = n := by
      rw [adj]
      omega
    exact ⟨hadj, guardBit_above hadj.ge⟩

/-! ### The advance key of each case (R78, R79) -/

section
variable {p : Params} {r : Regs}

theorem atLower_eq_false_iff : atLower r = false ↔ 0 < r.pos.toNat := by
  rw [← Bool.not_eq_true, atLower_iff, Nat.pos_iff_ne_zero]

theorem atUpper_eq_false_iff : atUpper p r = false ↔ r.pos.toNat + 1 ≠ p.n := by
  rw [← Bool.not_eq_true, atUpper_iff]

theorem advKey_lbRev_iff (hl : p.legal = true) : advKey p r = AdvKey.lbRev ↔ r.pos.toNat = 0 ∧ r.dir = .desc := by
  have hn := ((legal_iff p).mp hl).1
  refine (advKey_eq_iff p r true false true).trans ?_
  rw [atLower_iff, atUpper_eq_false_iff, dir_bit_eq_true]
  exact ⟨fun ⟨hlow, _, hdir⟩ => ⟨hlow, hdir⟩, fun ⟨hlow, hdir⟩ => ⟨hlow, by omega, hdir⟩⟩

theorem advKey_lbFwd_iff (hl : p.legal = true) : advKey p r = AdvKey.lbFwd ↔ r.pos.toNat = 0 ∧ r.dir = .asc := by
  have hn := ((legal_iff p).mp hl).1
  refine (advKey_eq_iff p r true false false).trans ?_
  rw [atLower_iff, atUpper_eq_false_iff, dir_bit_eq_false]
  exact ⟨fun ⟨hlow, _, hdir⟩ => ⟨hlow, hdir⟩, fun ⟨hlow, hdir⟩ => ⟨hlow, by omega, hdir⟩⟩

theorem advKey_ubRev_iff (hl : p.legal = true) : advKey p r = AdvKey.ubRev ↔ r.pos.toNat + 1 = p.n ∧ r.dir = .asc := by
  have hn := ((legal_iff p).mp hl).1
  refine (advKey_eq_iff p r false true false).trans ?_
  rw [atLower_eq_false_iff, atUpper_iff, dir_bit_eq_false]
  exact ⟨fun ⟨_, htop, hdir⟩ => ⟨htop, hdir⟩, fun ⟨htop, hdir⟩ => ⟨by omega, htop, hdir⟩⟩

theorem advKey_ubBack_iff (hl : p.legal = true) : advKey p r = AdvKey.ubBack ↔ r.pos.toNat + 1 = p.n ∧ r.dir = .desc := by
  have hn := ((legal_iff p).mp hl).1
  refine (advKey_eq_iff p r false true true).trans ?_
  rw [atLower_eq_false_iff, atUpper_iff, dir_bit_eq_true]
  exact ⟨fun ⟨_, htop, hdir⟩ => ⟨htop, hdir⟩, fun ⟨htop, hdir⟩ => ⟨by omega, htop, hdir⟩⟩

theorem advKey_intUp_iff :
    advKey p r = AdvKey.intUp ↔ 0 < r.pos.toNat ∧ r.pos.toNat + 1 ≠ p.n ∧ r.dir = .asc := by
  refine (advKey_eq_iff p r false false false).trans ?_
  rw [atLower_eq_false_iff, atUpper_eq_false_iff, dir_bit_eq_false]

theorem advKey_intDn_iff :
    advKey p r = AdvKey.intDn ↔ 0 < r.pos.toNat ∧ r.pos.toNat + 1 ≠ p.n ∧ r.dir = .desc := by
  refine (advKey_eq_iff p r false false true).trans ?_
  rw [atLower_eq_false_iff, atUpper_eq_false_iff, dir_bit_eq_true]

theorem atReversal_iff_advKey (hl : p.legal = true) :
    atReversal p.n r.pos r.dir ↔ advKey p r = AdvKey.lbRev ∨ advKey p r = AdvKey.ubRev := by
  rw [advKey_lbRev_iff hl, advKey_ubRev_iff hl]

end

theorem advKey_reset {p : Params} (hl : p.legal = true) : advKey p Regs.reset = AdvKey.lbFwd :=
  (advKey_lbFwd_iff hl).mpr ⟨rfl, rfl⟩

/-- Settles O26: the two keys name the two reversals, where the adjacent index is -1 and `N`. -/
theorem guardActsOnlyAtReversals : Obligations.GuardActsOnlyAtReversals := by
  intro p r hl hpos
  refine ⟨(adj_outside_iff hpos).trans (atReversal_iff_advKey hl), fun hk => ?_, fun hk => ?_, advKey_reset hl, rfl⟩
  · obtain ⟨hlow, hdir⟩ := (advKey_lbRev_iff hl).mp hk
    rw [hdir, adj, hlow]
    rfl
  · obtain ⟨hup, hdir⟩ := (advKey_ubRev_iff hl).mp hk
    rw [hdir, adj, ← hup]
    rfl

/-! ### What an advance does (R100, R107, R115) -/

theorem exec_eq_runAdvanceCase {i : Instr} (hi : i.format = .advKey) (s : State) : exec i s = runAdvanceCase i s := by
  cases i with
  | adv | shLo | shHi | ltHi | ltLo | wait => cases hi
  | advIntUp | advIntDn | advUbRev | advUbBack | advLbFwd | advLbRev => rfl

/-- `ADV` and its cases complete only as a clock edge that moves the chaser and starts a frame. -/
theorem exec_advance_next {i : Instr} {s t : State} (hi : i = .adv ∨ i.format = .advKey) (h : exec i s = .next t) :
    ∃ pos' dir', ChaserMove s.params.n s.regs.pos s.regs.dir pos' dir' ∧
      t = s.commit (startFrame s.params s.regs pos' dir') := by
  obtain rfl | hi := hi
  · obtain ⟨_, -, hcase⟩ := execAdv_next h
    exact runAdvanceCase_chaserMove hcase
  · rw [exec_eq_runAdvanceCase hi] at h
    exact runAdvanceCase_chaserMove h

/-- Settles O22: a frame's start raises no clock line, and a move changes the position or the direction. -/
theorem advanceFrame : Obligations.AdvanceFrame := by
  intro i s t hi h
  obtain ⟨pos', dir', hmove, rfl⟩ := exec_advance_next hi h
  refine ⟨rfl, rfl, react_startFrame .., rfl, rfl, ?_⟩
  cases hmove with
  | reverse => exact .inl rfl
  | up | down => exact .inr rfl

theorem exec_adv_chaserMove {s : State} (hl : s.params.legal = true) (hpos : s.regs.pos.toNat < s.params.n) :
    ∃ pos' dir', ChaserMove s.params.n s.regs.pos s.regs.dir pos' dir' ∧
      exec .adv s = .next (s.commit (startFrame s.params s.regs pos' dir')) := by
  obtain ⟨t, ht⟩ := execAdv_completes hl hpos
  obtain ⟨pos', dir', hmove, rfl⟩ := exec_advance_next (.inl rfl) ht
  exact ⟨pos', dir', hmove, ht⟩

/-- Settles O21: the frame starts with the pattern of the state before the move. -/
theorem advLoadsPatternOfOldState : Obligations.AdvLoadsPatternOfOldState := by
  intro s hl hpos
  obtain ⟨pos', dir', -, hadv⟩ := exec_adv_chaserMove hl hpos
  refine ⟨_, hadv, rfl, fun k hk => (getLsbD_pattern hk).trans ?_⟩
  cases s.regs.dir with
  | asc =>
    simp [adj]
    omega
  | desc =>
    simp [adj]
    omega

/-- Settles O27: the trail of the state a move reaches is the pattern of the state it leaves. -/
theorem patternIsTrailAfterMove : Obligations.PatternIsTrailAfterMove := by
  intro s hl hpos
  obtain ⟨-, hn, -⟩ := (legal_iff _).mp hl
  obtain ⟨pos', dir', hmove, hadv⟩ := exec_adv_chaserMove hl hpos
  exact ⟨_, hadv, rfl, (hmove.trail_eq hn hpos).symm, hmove.inRange hn hpos⟩

/-- Settles O28: the pattern of a move has the bit of the position and, but for a reversal, that of the position moved to. -/
theorem patternShape : Obligations.PatternShape := by
  intro s hl hpos
  obtain ⟨pos', dir', hmove, hadv⟩ := exec_adv_chaserMove hl hpos
  refine ⟨_, hadv, ?_, fun k hk => ?_⟩
  · rw [commit_regs, startFrame_pat]
    split_ifs with hlow hup
    · have hrev := (advKey_lbRev_iff hl).mp hlow
      rw [pattern_reverse hpos (.inl hrev), hrev.1]
      rfl
    · have hrev := (advKey_ubRev_iff hl).mp hup
      rw [pattern_reverse hpos (.inr hrev), ← hrev.1]
      rfl
    · cases hmove with
      | reverse hbound => exact absurd ((atReversal_iff_advKey hl).mp hbound) (not_or.mpr ⟨hlow, hup⟩)
      | up hdir hroom =>
        rw [hdir]
        exact ⟨s.regs.pos.toNat, by omega, pattern_up hroom⟩
      | down hdir hroom =>
        refine ⟨s.regs.pos.toNat - 1, by omega, ?_⟩
        rw [hdir, pattern_down hpos hroom, Nat.sub_add_cancel hroom, BitVec.or_comm]
        rfl
  · have hshift := congrArg (BitVec.getLsbD · (k - s.params.n)) (pattern_ushiftRight hpos s.regs.dir)
    simpa [Nat.add_sub_cancel' hk] using hshift

/-! ### The six cases (R101-R106) -/

/-- The position and the direction decide the move. -/
theorem ChaserMove.unique {n : Nat} {pos p₁ p₂ : Code} {d d₁ d₂ : Dir} (h₁ : ChaserMove n pos d p₁ d₁)
    (h₂ : ChaserMove n pos d p₂ d₂) : p₁ = p₂ ∧ d₁ = d₂ := by
  cases h₁ with
  | reverse hbound =>
    cases h₂ with
    | reverse => exact ⟨rfl, rfl⟩
    | up hdir hroom => exact absurd (hdir ▸ hbound) (not_atReversal_up hroom)
    | down hdir hroom => exact absurd (hdir ▸ hbound) (not_atReversal_down hroom)
  | up hdir hroom =>
    subst hdir
    cases h₂ with
    | reverse hbound => exact absurd hbound (not_atReversal_up hroom)
    | up => exact ⟨rfl, rfl⟩
    | down hdir => cases hdir
  | down hdir hroom =>
    subst hdir
    cases h₂ with
    | reverse hbound => exact absurd hbound (not_atReversal_down hroom)
    | up hdir => cases hdir
    | down => exact ⟨rfl, rfl⟩

/-- The next state of an advance, written out whole: the chaser's new state, the pattern and its top bit on the data line. -/
def State.advanced (s : State) (pos' : Code) (dir' : Dir) (pat : Byte) (top : Bool) : State :=
  { s with
    regs := { s.regs with
      pos := pos', dir := dir', pat := pat, bitidx := 7, hcnt := 0, ser := top, sclk := false, lclk := false,
      tcnt := s.regs.tcnt + 1, phase := Phase.shLo }
    rst := s.rst.tail }

theorem commit_startFrame (s : State) (pos' : Code) (dir' : Dir) :
    s.commit (startFrame s.params s.regs pos' dir') =
      s.advanced pos' dir' (pattern s.params.n s.regs.pos s.regs.dir)
        ((pattern s.params.n s.regs.pos s.regs.dir).getLsbD 7) := by
  rw [State.commit, react_startFrame]
  rfl

/-- The case the key selects is what `ADV` does (R85). -/
theorem exec_case_eq_adv {s : State} {i : Instr} (hi : i.format = .advKey) (hkey : advKey s.params s.regs = encode i) :
    exec i s = exec .adv s := by
  have hd : decodeAdvKey (encode i) = .ok i := by simpa [decode, hi] using decode_encode i
  change _ = execAdv s
  rw [execAdv, hkey, hd, exec_eq_runAdvanceCase hi]

/-- The next state of the selected case, alone and as `ADV`, from the move, the pattern and whether light 7 is one of its two. -/
theorem exec_selected_case {s : State} {i : Instr} {pos' : Code} {dir' : Dir} {pat : Byte} {top : Bool}
    (hl : s.params.legal = true) (hpos : s.regs.pos.toNat < s.params.n) (hi : i.format = .advKey)
    (hkey : advKey s.params s.regs = encode i) (hmove : ChaserMove s.params.n s.regs.pos s.regs.dir pos' dir')
    (hpat : pattern s.params.n s.regs.pos s.regs.dir = pat)
    (htop : 7 = s.regs.pos.toNat ∨ adj s.regs.pos s.regs.dir = 7 ∧ 7 < s.params.n ↔ top = true) :
    exec i s = .next (s.advanced pos' dir' pat top) ∧ exec .adv s = .next (s.advanced pos' dir' pat top) := by
  obtain ⟨p', d', hmove', hadv⟩ := exec_adv_chaserMove hl hpos
  obtain ⟨rfl, rfl⟩ := hmove.unique hmove'
  have hser : pat.getLsbD 7 = top := by
    rw [← hpat, Bool.eq_iff_iff, ← htop]
    exact getLsbD_pattern (by decide)
  rw [commit_startFrame, hpat, hser] at hadv
  exact ⟨(exec_case_eq_adv hi hkey).trans hadv, hadv⟩

theorem add_one_eq_ofNat (c : Code) : c + 1 = BitVec.ofNat 3 (c.toNat + 1) := by
  rw [BitVec.ofNat_add, BitVec.ofNat_toNat, BitVec.setWidth_eq]
  rfl

theorem sub_one_eq_ofNat {c : Code} (h : 0 < c.toNat) : c - 1 = BitVec.ofNat 3 (c.toNat - 1) := by
  rw [← toNat_sub_one h, BitVec.ofNat_toNat, BitVec.setWidth_eq]

/-- Settles O16: the chaser moves up from 0. -/
theorem advLbFwdLeavesZero : Obligations.AdvLbFwdLeavesZero := by
  refine ⟨fun p hl => advKey_reset hl, fun s hl hpos hdir => ?_⟩
  obtain ⟨hn, -⟩ := (legal_iff _).mp hl
  have hzero : s.regs.pos.toNat = 0 := by rw [hpos]; rfl
  have hkey : advKey s.params s.regs = AdvKey.lbFwd := (advKey_lbFwd_iff hl).mpr ⟨hzero, hdir⟩
  have hmove : ChaserMove s.params.n s.regs.pos s.regs.dir 1 .asc := by
    rw [hpos, hdir]
    exact .up rfl hn
  have hpat : pattern s.params.n s.regs.pos s.regs.dir = 0x03 := by
    rw [hdir, pattern_up (by omega), hzero]
    rfl
  obtain ⟨hcase, hadv⟩ := exec_selected_case (i := .advLbFwd) (top := false) hl (by omega) rfl hkey hmove hpat
    (by simp [adj, hdir, hzero])
  exact ⟨_, rfl, hkey, hcase, hadv, Nat.le_sub_one_of_lt hn⟩

/-- Settles O15: the chaser turns at 0, and the next advance is `ADV_LB_FWD`'s. -/
theorem advLbRevReversesAtZero : Obligations.AdvLbRevReversesAtZero := by
  intro s hl hpos hdir
  obtain ⟨hn, -⟩ := (legal_iff _).mp hl
  have hzero : s.regs.pos.toNat = 0 := by rw [hpos]; rfl
  have hkey : advKey s.params s.regs = AdvKey.lbRev := (advKey_lbRev_iff hl).mpr ⟨hzero, hdir⟩
  have hmove : ChaserMove s.params.n s.regs.pos s.regs.dir 0 .asc := by
    rw [hpos, hdir]
    exact .reverse (.inl ⟨rfl, rfl⟩)
  have hpat : pattern s.params.n s.regs.pos s.regs.dir = 0x01 := by
    rw [pattern_reverse (by omega) (.inl ⟨hzero, hdir⟩), hzero]
    rfl
  obtain ⟨hcase, hadv⟩ := exec_selected_case (i := .advLbRev) (top := false) hl (by omega) rfl hkey hmove hpat
    (by simp [adj, hdir, hzero])
  refine ⟨_, rfl, hkey, hcase, hadv, fun u hu hupos hudir => ?_⟩
  obtain ⟨_, rfl, hukey, -, huadv, -⟩ := advLbFwdLeavesZero.2 u (by rwa [hu]) hupos hudir
  exact ⟨hukey, _, huadv, rfl⟩

/-- Settles O17: the chaser turns at `N - 1`. -/
theorem advUbRevReversesAtTop : Obligations.AdvUbRevReversesAtTop := by
  intro s hl hpos hdir
  obtain ⟨hn, -⟩ := (legal_iff _).mp hl
  have htop : s.regs.pos.toNat + 1 = s.params.n := by omega
  have hkey : advKey s.params s.regs = AdvKey.ubRev := (advKey_ubRev_iff hl).mpr ⟨htop, hdir⟩
  have hmove : ChaserMove s.params.n s.regs.pos s.regs.dir s.regs.pos .desc := by
    rw [hdir]
    exact .reverse (.inr ⟨htop, rfl⟩)
  have hpat : pattern s.params.n s.regs.pos s.regs.dir = 1#8 <<< (s.params.n - 1) := by
    rw [pattern_reverse (by omega) (.inr ⟨htop, hdir⟩), hpos]
    rfl
  obtain ⟨hcase, hadv⟩ := exec_selected_case (i := .advUbRev) (top := decide (s.params.n = 8)) hl (by omega) rfl hkey hmove
    hpat (by simp [adj, hdir]; omega)
  exact ⟨_, rfl, hkey, hcase, hadv⟩

/-- Settles O18: the chaser moves down from `N - 1`. -/
theorem advUbBackLeavesTop : Obligations.AdvUbBackLeavesTop := by
  intro s hl hpos hdir
  obtain ⟨hn, -⟩ := (legal_iff _).mp hl
  have hkey : advKey s.params s.regs = AdvKey.ubBack := (advKey_ubBack_iff hl).mpr ⟨by omega, hdir⟩
  have hbelow : s.regs.pos.toNat - 1 = s.params.n - 2 := by omega
  have hmove : ChaserMove s.params.n s.regs.pos s.regs.dir (BitVec.ofNat 3 (s.params.n - 2)) .desc := by
    rw [hdir, ← hbelow, ← sub_one_eq_ofNat (by omega)]
    exact .down rfl (by omega)
  have hpat : pattern s.params.n s.regs.pos s.regs.dir = (1#8 <<< (s.params.n - 1)) ||| (1#8 <<< (s.params.n - 2)) := by
    rw [hdir, pattern_down (by omega) (by omega), hbelow, hpos]
    rfl
  obtain ⟨hcase, hadv⟩ := exec_selected_case (i := .advUbBack) (top := decide (s.params.n = 8)) hl (by omega) rfl hkey hmove
    hpat (by simp [adj, hdir]; omega)
  exact ⟨_, rfl, hkey, hcase, hadv⟩

/-- Settles O19: the chaser moves up one; where it lands on `N - 1` the next key is `ADV_UB_REV`'s. -/
theorem advIntUpMovesUp : Obligations.AdvIntUpMovesUp := by
  intro s hl hlow hup hdir
  obtain ⟨-, hn, -⟩ := (legal_iff _).mp hl
  have hroom : s.regs.pos.toNat + 1 < s.params.n := by omega
  have hkey : advKey s.params s.regs = AdvKey.intUp := advKey_intUp_iff.mpr ⟨hlow, hroom.ne, hdir⟩
  have hmove : ChaserMove s.params.n s.regs.pos s.regs.dir (BitVec.ofNat 3 (s.regs.pos.toNat + 1)) .asc := by
    rw [hdir, ← add_one_eq_ofNat]
    exact .up rfl hroom
  have hnext : (BitVec.ofNat 3 (s.regs.pos.toNat + 1)).toNat = s.regs.pos.toNat + 1 := by
    rw [← add_one_eq_ofNat, toNat_add_one hn hroom]
  have hpat : pattern s.params.n s.regs.pos s.regs.dir =
      (1#8 <<< s.regs.pos.toNat) ||| (1#8 <<< (s.regs.pos.toNat + 1)) := by
    rw [hdir]
    exact pattern_up hroom
  obtain ⟨hcase, hadv⟩ := exec_selected_case (i := .advIntUp) (top := decide (s.regs.pos.toNat = 6)) hl (by omega) rfl hkey
    hmove hpat (by simp [adj, hdir]; omega)
  refine ⟨_, rfl, hkey, hcase, hadv, hnext, by rw [hnext]; omega, by omega, fun u hu hupos hudir htop => ?_⟩
  rw [← hupos] at htop
  exact (advKey_ubRev_iff (by rwa [hu])).mpr ⟨by rw [hu]; omega, hudir⟩

/-- Settles O20: the chaser moves down one; where it lands on 0 the next key is `ADV_LB_REV`'s. -/
theorem advIntDnMovesDown : Obligations.AdvIntDnMovesDown := by
  intro s hl hlow hup hdir
  obtain ⟨-, hn, -⟩ := (legal_iff _).mp hl
  have hkey : advKey s.params s.regs = AdvKey.intDn := advKey_intDn_iff.mpr ⟨hlow, by omega, hdir⟩
  have hmove : ChaserMove s.params.n s.regs.pos s.regs.dir (BitVec.ofNat 3 (s.regs.pos.toNat - 1)) .desc := by
    rw [hdir, ← sub_one_eq_ofNat hlow]
    exact .down rfl hlow
  have hnext : (BitVec.ofNat 3 (s.regs.pos.toNat - 1)).toNat = s.regs.pos.toNat - 1 := by
    rw [← sub_one_eq_ofNat hlow, toNat_sub_one hlow]
  have hpat : pattern s.params.n s.regs.pos s.regs.dir =
      (1#8 <<< s.regs.pos.toNat) ||| (1#8 <<< (s.regs.pos.toNat - 1)) := by
    rw [hdir]
    exact pattern_down (by omega) hlow
  obtain ⟨hcase, hadv⟩ := exec_selected_case (i := .advIntDn) (top := false) hl (by omega) rfl hkey hmove hpat
    (by simp [adj, hdir]; omega)
  refine ⟨_, rfl, hkey, hcase, hadv, hnext, by omega, fun u hu hupos hudir hzero => ?_⟩
  rw [← hupos] at hzero
  exact (advKey_lbRev_iff (by rwa [hu])).mpr ⟨hzero, hudir⟩

/-! ### The table of the sequence (R112) -/

section
variable {n u : Nat} {pos : Code} {d : Dir}

/-- The rows that face up are the first `N`, each at the position of its number. -/
theorem asc_row_iff (hn : n ≤ 8) : (pos, Dir.asc) = chaserAt n u ↔ u < n ∧ pos.toNat = u := by
  rw [chaserAt]
  split_ifs with h
  · have hmod : u % 8 = u := Nat.mod_eq_of_lt (by omega)
    simp [h, ← BitVec.toNat_inj, hmod]
  · simp [h]

/-- The rows that face down are the rest, from `N - 1` back to 0. -/
theorem desc_row_iff (hn : n ≤ 8) : (pos, Dir.desc) = chaserAt n u ↔ n ≤ u ∧ pos.toNat = 2 * n - 1 - u := by
  rw [chaserAt]
  split_ifs with h
  · simp [h]
  · have hmod : (2 * n - 1 - u) % 8 = 2 * n - 1 - u := Nat.mod_eq_of_lt (by omega)
    simp [not_lt.mp h, ← BitVec.toNat_inj, hmod]

theorem inRange_of_row (hn : n ≤ 8) (hu : u < 2 * n) (hrow : (pos, d) = chaserAt n u) : pos.toNat < n := by
  cases d with
  | asc =>
    obtain ⟨hup, hpos⟩ := (asc_row_iff hn).mp hrow
    omega
  | desc =>
    obtain ⟨hdown, hpos⟩ := (desc_row_iff hn).mp hrow
    omega

/-- The pattern of a row is the trail of the row's chaser state (R110, R112). -/
theorem trail_of_row (hn : n ≤ 8) (hu : u < 2 * n) (hrow : (pos, d) = chaserAt n u) :
    trail n pos d = patternAt n u := by
  cases d with
  | asc =>
    obtain ⟨hup, hpos⟩ := (asc_row_iff hn).mp hrow
    rw [trail, patternAt, hpos]
    by_cases hzero : u = 0
    · rw [if_pos hzero, guardBit_below (by omega), hzero]
      rfl
    · rw [if_neg hzero, if_pos hup, guardBit_inside (by omega) (by omega), BitVec.or_comm]
      congr 2
      omega
  | desc =>
    obtain ⟨hdown, hpos⟩ := (desc_row_iff hn).mp hrow
    rw [trail, patternAt, hpos, if_neg (by omega), if_neg (by omega)]
    by_cases htop : u = n
    · have hlast : 2 * n - 1 - u = n - 1 := by omega
      rw [if_pos htop, guardBit_above (by omega), hlast]
      exact BitVec.or_zero
    · rw [if_neg htop, guardBit_inside (by omega) (by omega)]
      congr 2
      omega

/-- A move goes from a row to the next one, from the last back to row 0. -/
theorem ChaserMove.next_row {pos' : Code} {d' : Dir} (hn : n ≤ 8) (hu : u < 2 * n) (hrow : (pos, d) = chaserAt n u)
    (h : ChaserMove n pos d pos' d') : (pos', d') = chaserAt n ((u + 1) % (2 * n)) := by
  cases h with
  | reverse hbound =>
    obtain ⟨hlow, rfl⟩ | ⟨htop, rfl⟩ := hbound
    · obtain ⟨-, hpos⟩ := (desc_row_iff hn).mp hrow
      rw [show u + 1 = 2 * n by omega, Nat.mod_self]
      exact (asc_row_iff hn).mpr ⟨by omega, hlow⟩
    · obtain ⟨-, hpos⟩ := (asc_row_iff hn).mp hrow
      rw [Nat.mod_eq_of_lt (by omega)]
      exact (desc_row_iff hn).mpr ⟨by omega, by omega⟩
  | up hdir hroom =>
    subst hdir
    obtain ⟨-, hpos⟩ := (asc_row_iff hn).mp hrow
    rw [Nat.mod_eq_of_lt (by omega)]
    exact (asc_row_iff hn).mpr ⟨by omega, by rw [toNat_add_one hn hroom, hpos]⟩
  | down hdir hroom =>
    subst hdir
    obtain ⟨hdown, hpos⟩ := (desc_row_iff hn).mp hrow
    rw [Nat.mod_eq_of_lt (by omega)]
    exact (desc_row_iff hn).mpr ⟨by omega, by rw [toNat_sub_one hroom]; omega⟩

/-- The pattern a move loads is that of the row it reaches. -/
theorem ChaserMove.pattern_next_row {pos' : Code} {d' : Dir} (hn : n ≤ 8) (hu : u < 2 * n)
    (hrow : (pos, d) = chaserAt n u) (h : ChaserMove n pos d pos' d') :
    pattern n pos d = patternAt n ((u + 1) % (2 * n)) :=
  calc pattern n pos d = trail n pos' d' := (h.trail_eq hn (inRange_of_row hn hu hrow)).symm
    _ = _ := trail_of_row hn (Nat.mod_lt _ (by omega)) (h.next_row hn hu hrow)

end

/-- Settles O29: `ADV` makes a move, and a move goes to the next row. -/
theorem advanceFollowsSequenceTable : Obligations.AdvanceFollowsSequenceTable := by
  intro s u hl hu hrow
  obtain ⟨-, hn, -⟩ := (legal_iff _).mp hl
  obtain ⟨pos', dir', hmove, hadv⟩ := exec_adv_chaserMove hl (inRange_of_row hn hu hrow)
  exact ⟨_, hadv, hmove.next_row hn hu hrow, hmove.pattern_next_row hn hu hrow⟩

/-! ### Runs over whole ticks (R112, R145) -/

/-- A run that goes on is its first step before the rest. -/
theorem run_succ_next {M : Host.Core} {s t : M.State} {k : Nat} (h : M.run (k + 1) s = .next t) :
    ∃ s', M.step s = .next s' ∧ M.run k s' = .next t := by
  cases hs : M.step s with
  | next s' => exact ⟨s', rfl, (run_succ_of_step hs k).symm.trans h⟩
  | fault f => simp [Host.Core.run, hs] at h
  | refused w => simp [Host.Core.run, hs] at h

theorem run_add {M : Host.Core} {s t : M.State} {j : Nat} (h : M.run j s = .next t) (k : Nat) :
    M.run (j + k) s = M.run k t := by
  induction j generalizing s with
  | zero =>
    cases h
    rw [Nat.zero_add]
  | succ j ih =>
    obtain ⟨s', hs, h'⟩ := run_succ_next h
    rw [Nat.succ_add, run_succ_of_step hs, ih h']

theorem inv_of_run {s t : State} {k : Nat} (hi : s.Inv) (h : core.run k s = .next t) : t.Inv := by
  obtain ⟨t', ht', hinv⟩ := run_keeps_inv k hi
  cases h.symm.trans ht'
  exact hinv

/-- A run keeps the build and uses up one level of `rst` a cycle (R7). -/
theorem run_params_rst {s t : State} {k : Nat} (h : core.run k s = .next t) :
    t.params = s.params ∧ t.rst = s.rst.drop k := by
  induction k generalizing s with
  | zero =>
    cases h
    exact ⟨rfl, rfl⟩
  | succ k ih =>
    obtain ⟨s', hs, h'⟩ := run_succ_next (M := core) h
    obtain ⟨hparams, hrst, -⟩ := buildNeverChanges s s' hs
    obtain ⟨hparams', hrst'⟩ := ih h'
    exact ⟨hparams'.trans hparams, by rw [hrst', hrst, List.drop_tail]⟩

theorem quietFor_mono {s : State} {j k : Nat} (hjk : j ≤ k) (hq : s.quietFor k) : s.quietFor j :=
  fun b hb => hq b (List.take_subset_take_left _ hjk hb)

theorem quietFor_of_drop {s t : State} {j k : Nat} (hq : s.quietFor (j + k)) (ht : t.rst = s.rst.drop j) :
    t.quietFor k := by
  intro b hb
  rw [ht, List.take_drop] at hb
  exact hq b (List.mem_of_mem_drop hb)

/-- A move counts the cycle or begins the next tick (R141). -/
theorem RegsMove.tcnt_succ_or_adv {p : Params} {r r' : Regs} (h : RegsMove p r r') :
    r'.tcnt = r.tcnt + 1 ∨ r'.phase = Phase.adv := by
  cases h with
  | advance | countHalf | raiseShiftClock | nextBit | raiseLatch | lowerLatch | endInTime | waitOn => exact .inl rfl
  | endOverrun | waitEnd => exact .inr rfl

/-- The tick counter stays below the interval (R141, R145). -/
theorem tcnt_lt_interval {p : Params} {r : Regs} (hi : r.Inv p) : r.tcnt < p.interval := by
  have hle := tcnt_le_of_inv hi
  rw [Params.interval, Params.work]
  omega

theorem phase_ne_adv_of_tcnt {p : Params} {r : Regs} (hi : r.Inv p) (h : 0 < r.tcnt) : r.phase ≠ Phase.adv := by
  intro hadv
  obtain ⟨-, -, -, -, htcnt, -⟩ := (regsInv_adv_iff hadv).mp hi
  omega

/-- From `k` cycles before the end of a tick the run reaches the next `ADV` cycle in `k` steps, the chaser and the pattern kept. -/
theorem run_to_next_adv {k : Nat} {s : State} (hi : s.Inv) (hpos : 0 < s.regs.tcnt)
    (hk : s.regs.tcnt + k = s.params.interval) (hq : s.quietFor k) :
    ∃ t, core.run k s = .next t ∧ t.regs.phase = Phase.adv ∧
      t.regs.pos = s.regs.pos ∧ t.regs.dir = s.regs.dir ∧ t.regs.pat = s.regs.pat := by
  induction k generalizing s with
  | zero => exact absurd (tcnt_lt_interval (regsInv_of_inv hi)) (by omega)
  | succ k ih =>
    obtain ⟨t, ht⟩ := step_completes hi
    obtain ⟨hparams, hrst, -⟩ := buildNeverChanges s t ht
    obtain ⟨hr, hq'⟩ := quietFor_succ hq hrst
    have hmove : RegsMove s.params s.regs t.regs := (step_regsMove hr ht).1
    have hi' : t.Inv := stepKeepsInvariants s t hi ht
    obtain ⟨hpos', hdir', hpat'⟩ :=
      (chaserWrittenOnlyByAdvance s t hr ht).1 (phase_ne_adv_of_tcnt (regsInv_of_inv hi) hpos)
    rw [run_succ_of_step (M := core) ht, ← hpos', ← hdir', ← hpat']
    cases k with
    | zero =>
      have hbound := tcnt_lt_interval (regsInv_of_inv hi')
      rw [hparams] at hbound
      have hadv : t.regs.phase = Phase.adv := hmove.tcnt_succ_or_adv.resolve_left (by omega)
      exact ⟨t, rfl, hadv, rfl, rfl, rfl⟩
    | succ k =>
      have htcnt := hmove.tcnt_succ (regsInv_of_inv hi) (by omega)
      exact ih hi' (by omega) (by rw [htcnt, hparams]; omega) hq'

/-- One whole tick: its `ADV` cycle moves the chaser and loads the pattern, the rest of it keeps both. -/
theorem run_tick {s : State} (hi : s.Inv) (hadv : s.regs.phase = Phase.adv) (hq : s.quietFor s.params.interval) :
    ∃ t, core.run s.params.interval s = .next t ∧ t.regs.phase = Phase.adv ∧
      ChaserMove s.params.n s.regs.pos s.regs.dir t.regs.pos t.regs.dir ∧
      t.regs.pat = pattern s.params.n s.regs.pos s.regs.dir := by
  obtain ⟨hl, hf, hregs⟩ := (inv_iff s).mp hi
  obtain ⟨hpos, -, ⟨hh, -⟩, -, htcnt, -⟩ := (regsInv_adv_iff hadv).mp hregs
  obtain ⟨k, hk⟩ : ∃ k, s.params.interval = k + 1 := Nat.exists_eq_add_one.mpr (interval_pos s.params)
  rw [hk] at hq
  obtain ⟨pos', dir', hmove, hexec⟩ := exec_adv_chaserMove hl hpos
  obtain ⟨hr, hq'⟩ := quietFor_succ hq (commit_rst s (startFrame s.params s.regs pos' dir'))
  have hstep : step s = .next (s.commit (startFrame s.params s.regs pos' dir')) :=
    (step_of_decoded hl hr (faultCheck_none.mpr ⟨hf, hpos, hh⟩) (by rw [hadv]; rfl)).trans hexec
  have hcycle : (startFrame s.params s.regs pos' dir').tcnt = 1 := by rw [startFrame_tcnt, htcnt]
  obtain ⟨t, hrun, hphase, hpos', hdir', hpat'⟩ := run_to_next_adv (stepKeepsInvariants _ _ hi hstep)
    (by rw [commit_regs, hcycle]; exact Nat.one_pos) (by rw [commit_regs, hcycle, commit_params, hk, Nat.add_comm]) hq'
  refine ⟨t, ?_, hphase, ?_, hpat'⟩
  · rw [hk, run_succ_of_step (M := core) hstep, hrun]
  · rwa [hpos', hdir']

/-- Settles O58, by induction on the ticks: the last of them is one more move, to the next row. -/
theorem ticksFollowSequenceTable : Obligations.TicksFollowSequenceTable := by
  intro s u k hi hadv hu hrow hq
  obtain ⟨-, hn, -⟩ := (legal_iff _).mp ((inv_iff s).mp hi).1
  induction k with
  | zero =>
    rw [Nat.zero_mul, Nat.add_zero, Nat.mod_eq_of_lt hu]
    exact ⟨s, rfl, hadv, hrow, fun h => absurd h (lt_irrefl 0)⟩
  | succ k ih =>
    rw [Nat.succ_mul] at hq ⊢
    obtain ⟨t, hrun, hphase, hrow', -⟩ := ih (quietFor_mono (Nat.le_add_right _ _) hq)
    obtain ⟨hparams, hrst⟩ := run_params_rst hrun
    have hq' : t.quietFor t.params.interval := by
      rw [hparams]
      exact quietFor_of_drop hq hrst
    obtain ⟨v, hrun', hphase', hmove, hpat⟩ := run_tick (inv_of_run hi hrun) hphase hq'
    rw [hparams] at hrun' hmove hpat
    have hlast : (u + k) % (2 * s.params.n) < 2 * s.params.n := Nat.mod_lt _ (by omega)
    rw [run_add hrun, ← Nat.add_assoc, ← Nat.mod_add_mod]
    exact ⟨v, hrun', hphase', hmove.next_row hn hlast hrow', fun _ => hpat.trans (hmove.pattern_next_row hn hlast hrow')⟩

end Sys2Proof.Machine
end

section
/-! PROOFS. The driver (41_driver.md): the whole next state of the shift and latch phases, the frame of the phases other than `ADV`,
and that the block hears nothing from the receiver and keeps the data line still around a shift edge. -/

namespace Sys2Proof.Machine

/-! ### A clock edge, by the line it raises (R54, R56, R57) -/

section
variable {s : State} {r : Regs}

theorem commit_of_no_rise (hs : rises s.regs.sclk r.sclk = false) (hl : rises s.regs.lclk r.lclk = false) :
    s.commit r = { s with regs := r, rst := s.rst.tail } := by
  rw [State.commit, react_of_no_rise hs hl]

theorem commit_of_sclk_rise (hs : rises s.regs.sclk r.sclk = true) (hl : rises s.regs.lclk r.lclk = false) :
    s.commit r = { s with
      regs := r, rx := { s.rx with chain := shiftIn s.rx.chain r.ser }, rst := s.rst.tail } := by
  simp [State.commit, Receiver.react, hs, hl]

theorem commit_of_lclk_rise (hs : rises s.regs.sclk r.sclk = false) (hl : rises s.regs.lclk r.lclk = true) :
    s.commit r = { s with regs := r, rx := { s.rx with out := s.rx.chain }, rst := s.rst.tail } := by
  simp [State.commit, Receiver.react, hs, hl]

end

/-! ### The whole next state of a shift or latch phase (R120, R122-R124) -/

/-- A cycle of a frame phase before the last of its half-period: the two counters count, and no line moves. -/
theorem commit_halfPeriod_more {s : State} (last : Regs) (hmore : s.regs.hcnt + 1 < s.params.halfCyc) :
    s.commit (halfPeriod s.params s.regs last) = { s with
      regs := { s.regs with hcnt := s.regs.hcnt + 1, tcnt := s.regs.tcnt + 1 }, rst := s.rst.tail } := by
  rw [halfPeriod_more hmore]
  exact commit_of_no_rise (rises_self _) (rises_self _)

/-- Settles O30: the last cycle raises the shift clock, unless it is high already. -/
theorem shLoEffect : Obligations.ShLoEffect := by
  intro s
  refine congrArg Host.Outcome.next ?_
  by_cases hmore : s.regs.hcnt + 1 < s.params.halfCyc
  · rw [commit_halfPeriod_more _ hmore, if_pos hmore, if_pos (.inl hmore)]
  · rw [halfPeriod_last (not_lt.mp hmore), if_neg hmore]
    by_cases hsclk : s.regs.sclk = true
    · rw [if_pos (.inr hsclk)]
      exact commit_of_no_rise (by simp [hsclk]) (rises_self _)
    · rw [if_neg (not_or.mpr ⟨hmore, hsclk⟩), ← shiftIn_eq]
      exact commit_of_sclk_rise (by simp [rises, hsclk]) (rises_self _)

/-- Settles O31: the last cycle lowers the shift clock and places the next bit or, after bit 0, raises the latch clock, unless it is
high already. -/
theorem shHiEffect : Obligations.ShHiEffect := by
  intro s
  refine congrArg Host.Outcome.next ?_
  by_cases hmore : s.regs.hcnt + 1 < s.params.halfCyc
  · rw [commit_halfPeriod_more _ hmore, if_pos hmore, if_pos (.inl hmore)]
  · rw [halfPeriod_last (not_lt.mp hmore), if_neg hmore]
    by_cases hbit : s.regs.bitidx = 0
    · rw [endOfShiftPulse_lastBit (by rw [hbit]; rfl), if_neg (not_not.mpr hbit)]
      by_cases hlclk : s.regs.lclk = true
      · rw [if_pos (.inr (.inr hlclk))]
        exact commit_of_no_rise (rises_false _) (by simp [hlclk])
      · rw [if_neg (by simp [hmore, hbit, hlclk])]
        exact commit_of_lclk_rise (rises_false _) (by simp [rises, hlclk])
    · have hpos : 0 < s.regs.bitidx.toNat := Nat.pos_of_ne_zero fun h => hbit (BitVec.eq_of_toNat_eq h)
      rw [endOfShiftPulse_nextBit hpos, if_pos hbit, if_pos (.inr (.inl hbit)), dataBit, toNat_sub_one hpos]
      exact commit_of_no_rise (rises_false _) (rises_self _)

/-- Settles O32: `LT_HI` raises no line. -/
theorem ltHiEffect : Obligations.LtHiEffect := by
  intro s
  refine congrArg Host.Outcome.next ?_
  by_cases hmore : s.regs.hcnt + 1 < s.params.halfCyc
  · rw [commit_halfPeriod_more _ hmore, if_pos hmore]
  · rw [halfPeriod_last (not_lt.mp hmore), if_neg hmore]
    exact commit_of_no_rise (rises_self _) (rises_false _)

/-! ### What the phases other than `ADV` leave alone -/

/-- What the phase operation `i` leaves of the registers, and which clock line it cannot raise. -/
structure PhaseKeeps (i : Instr) (r r' : Regs) : Prop where
  pos : r'.pos = r.pos
  dir : r'.dir = r.dir
  pat : r'.pat = r.pat
  data : i ≠ .shHi → r'.ser = r.ser ∧ r'.bitidx = r.bitidx
  ovr : i ≠ .ltLo → r'.ovr = r.ovr
  noShiftEdge : i ≠ .shLo → rises r.sclk r'.sclk = false
  noLatchEdge : i ≠ .shHi → rises r.lclk r'.lclk = false
  sclk : i ≠ .shLo ∧ i ≠ .shHi → r'.sclk = r.sclk
  lclk : i ≠ .shHi ∧ i ≠ .ltHi → r'.lclk = r.lclk

/-- A move of the counters, the phase and nothing else. -/
theorem phaseKeeps_of_count (i : Instr) (r : Regs) (hcnt tcnt : Nat) (phase : Code) :
    PhaseKeeps i r { r with hcnt := hcnt, tcnt := tcnt, phase := phase } :=
  ⟨rfl, rfl, rfl, fun _ => ⟨rfl, rfl⟩, fun _ => rfl, fun _ => rises_self _, fun _ => rises_self _, fun _ => rfl,
    fun _ => rfl⟩

theorem phaseKeeps_halfPeriod {i : Instr} {p : Params} {r last : Regs} (h : PhaseKeeps i r last) :
    PhaseKeeps i r (halfPeriod p r last) := by
  by_cases hmore : r.hcnt + 1 < p.halfCyc
  · rw [halfPeriod_more hmore]
    exact phaseKeeps_of_count i r _ _ _
  · rwa [halfPeriod_last (not_lt.mp hmore)]

section
variable (p : Params) (r : Regs)

theorem phaseKeeps_raiseShiftClock :
    PhaseKeeps .shLo r { r with hcnt := 0, sclk := true, phase := Phase.shHi, tcnt := r.tcnt + 1 } :=
  ⟨rfl, rfl, rfl, fun _ => ⟨rfl, rfl⟩, fun _ => rfl, fun h => absurd rfl h, fun _ => rises_self _,
    fun h => absurd rfl h.1, fun _ => rfl⟩

theorem phaseKeeps_endOfShiftPulse : PhaseKeeps .shHi r { endOfShiftPulse r with tcnt := r.tcnt + 1 } := by
  obtain hbit | hbit := Nat.eq_zero_or_pos r.bitidx.toNat
  case' inl => rw [endOfShiftPulse_lastBit hbit]
  case' inr => rw [endOfShiftPulse_nextBit hbit]
  all_goals exact ⟨rfl, rfl, rfl, fun h => absurd rfl h, fun _ => rfl, fun _ => rises_false _, fun h => absurd rfl h,
    fun h => absurd rfl h.2, fun h => absurd rfl h.1⟩

theorem phaseKeeps_lowerLatch :
    PhaseKeeps .ltHi r { r with hcnt := 0, lclk := false, phase := Phase.ltLo, tcnt := r.tcnt + 1 } :=
  ⟨rfl, rfl, rfl, fun _ => ⟨rfl, rfl⟩, fun _ => rfl, fun _ => rises_self _, fun _ => rises_false _, fun _ => rfl,
    fun h => absurd rfl h.2⟩

theorem phaseKeeps_endOfFrame : PhaseKeeps .ltLo r { endOfFrame p r with hcnt := 0 } := by
  by_cases htime : p.tickCyc ≤ r.tcnt + 1
  · rw [endOfFrame_overrun htime]
    exact ⟨rfl, rfl, rfl, fun _ => ⟨rfl, rfl⟩, fun h => absurd rfl h, fun _ => rises_self _, fun _ => rises_self _,
      fun _ => rfl, fun _ => rfl⟩
  · rw [endOfFrame_inTime (not_le.mp htime)]
    exact phaseKeeps_of_count _ _ _ _ _

end

/-- Each phase operation but `ADV` is a clock edge that leaves what `PhaseKeeps` says. -/
theorem exec_phaseKeeps {i : Instr} {s t : State} (hi : i.format = .phase) (hadv : i ≠ .adv) (h : exec i s = .next t) :
    PhaseKeeps i s.regs t.regs ∧ t = s.commit t.regs := by
  cases i with
  | advIntUp | advIntDn | advUbRev | advUbBack | advLbFwd | advLbRev => cases hi
  | adv => exact absurd rfl hadv
  | shLo =>
    cases h
    exact ⟨phaseKeeps_halfPeriod (phaseKeeps_raiseShiftClock _), rfl⟩
  | shHi =>
    cases h
    exact ⟨phaseKeeps_halfPeriod (phaseKeeps_endOfShiftPulse _), rfl⟩
  | ltHi =>
    cases h
    exact ⟨phaseKeeps_halfPeriod (phaseKeeps_lowerLatch _), rfl⟩
  | ltLo =>
    cases h
    exact ⟨phaseKeeps_halfPeriod (phaseKeeps_endOfFrame _ _), rfl⟩
  | wait =>
    cases h
    refine ⟨?_, rfl⟩
    rw [commit_regs]
    split_ifs
    all_goals exact phaseKeeps_of_count _ _ _ _ _

/-- Settles O35: where a clock line does not rise the receiver keeps the register that line writes. -/
theorem framePhasesFrame : Obligations.FramePhasesFrame := by
  intro i s t hi hadv h
  obtain ⟨hk, ht⟩ := exec_phaseKeeps hi hadv h
  have hrx : t.rx = s.rx.react s.regs t.regs := congrArg State.rx ht
  have hchain (hne : i ≠ .shLo) : t.rx.chain = s.rx.chain := by simp [hrx, Receiver.react, hk.noShiftEdge hne]
  have hout (hne : i ≠ .shHi) : t.rx.out = s.rx.out := by simp [hrx, Receiver.react, hk.noLatchEdge hne]
  refine ⟨?_, ?_, ?_, hk.pos, hk.dir, hk.pat, hk.data, hk.ovr, hchain, hout, hk.sclk, hk.lclk⟩
  all_goals
    rw [ht]
    rfl

/-! ### The receiver is not heard (R129) -/

section
variable {i : Instr} {s t : State} (x : Receiver)

theorem runAdvanceCase_with_rx (h : runAdvanceCase i s = .next t) :
    runAdvanceCase i { s with rx := x } = .next (State.commit { s with rx := x } t.regs) := by
  cases i with
  | adv | shLo | shHi | ltHi | ltLo | wait => cases h
  | advIntUp | advIntDn | advUbRev | advUbBack | advLbFwd | advLbRev =>
    obtain ⟨hpos, hkey, rfl⟩ := advanceAs_next h
    exact advanceAs_selected (s := { s with rx := x }) hpos hkey

/-- With other receiver contents an operation that completes writes the same registers. -/
theorem exec_with_rx (h : exec i s = .next t) :
    exec i { s with rx := x } = .next (State.commit { s with rx := x } t.regs) := by
  cases i with
  | adv =>
    obtain ⟨j, hd, hj⟩ := execAdv_next h
    change execAdv _ = _
    rw [execAdv, hd]
    exact runAdvanceCase_with_rx x hj
  | shLo | shHi | ltHi | ltLo | wait =>
    cases h
    rfl
  | advIntUp | advIntDn | advUbRev | advUbBack | advLbFwd | advLbRev =>
    rw [exec_eq_runAdvanceCase rfl] at h ⊢
    exact runAdvanceCase_with_rx x h

end

/-- Settles O40: no check and no operation reads the receiver. -/
theorem receiverNeverReachesBlock : Obligations.ReceiverNeverReachesBlock := by
  intro s t x h
  obtain ⟨hl, ⟨hr, rfl⟩ | ⟨hr, hf, hpos, hh, i, hd, hi⟩⟩ := step_next h
  · exact ⟨_, step_of_reset (s := { s with rx := x }) hl hr, rfl⟩
  · have hc : faultCheck { s with rx := x } = none := faultCheck_none.mpr ⟨hf, hpos, hh⟩
    refine ⟨_, (step_of_decoded (s := { s with rx := x }) hl hr hc hd).trans (exec_with_rx x hi), ?_⟩
    obtain ⟨r, rfl⟩ := exec_next hi
    rfl

/-! ### The data line around a shift edge (R123, R188) -/

/-- Only an advance and the end of a shift pulse before the last place a bit on the data line, and both leave the shift clock low. -/
theorem RegsMove.of_ser_ne {p : Params} {r r' : Regs} (h : RegsMove p r r') (hi : r.Inv p) (hne : r'.ser ≠ r.ser) :
    r'.sclk = false ∧ (r.phase = Phase.adv ∨
      r.phase = Phase.shHi ∧ r.hcnt + 1 = p.halfCyc ∧ 0 < r.bitidx.toNat ∧ r.sclk = true) := by
  cases h with
  | advance hphase => exact ⟨rfl, .inl hphase⟩
  | nextBit hphase hlast hbit =>
    obtain ⟨-, ⟨hsclk, -⟩, -⟩ := (regsInv_shHi_iff hphase).mp hi
    exact ⟨rfl, .inr ⟨hphase, hlast, hbit, hsclk⟩⟩
  | countHalf | raiseShiftClock | raiseLatch | lowerLatch | endInTime | endOverrun | waitOn | waitEnd =>
    exact absurd rfl hne

/-- Settles O44: a reset lowers the shift clock, and every other step makes a move. -/
theorem dataStableAroundShiftEdge : Obligations.DataStableAroundShiftEdge := by
  intro s t hi h hne
  cases hr : s.rstNow with
  | true => exact ⟨by rw [step_reset_regs hr h, reset_sclk], nofun⟩
  | false =>
    obtain ⟨hlow, hwhere⟩ := (step_regsMove hr h).1.of_ser_ne (regsInv_of_inv hi) hne
    exact ⟨hlow, fun _ => hwhere⟩

end Sys2Proof.Machine
end

section
/-! PROOFS. The scheduler (42_scheduler.md): the end of a frame and the wait, the tick counter, the work and the interval of a tick,
and the overrun flag, which nothing reads and the build alone decides. -/

namespace Sys2Proof.Machine

/-! ### The whole next state of `LT_LO` and `WAIT` (R126, R146, R147) -/

/-- Settles O33: the last cycle ends the frame, overrun or in time, and no branch raises a line. -/
theorem ltLoEffect : Obligations.LtLoEffect := by
  intro s
  refine congrArg Host.Outcome.next ?_
  by_cases hmore : s.regs.hcnt + 1 < s.params.halfCyc
  · rw [commit_halfPeriod_more _ hmore, if_pos hmore]
  · rw [halfPeriod_last (not_lt.mp hmore), if_neg hmore]
    by_cases htime : s.params.tickCyc ≤ s.regs.tcnt + 1
    · rw [endOfFrame_overrun htime, if_pos htime]
      exact commit_of_no_rise (rises_self _) (rises_self _)
    · rw [endOfFrame_inTime (not_le.mp htime), if_neg htime]
      exact commit_of_no_rise (rises_self _) (rises_self _)

/-- Settles O34: the wait ends or goes on, and neither raises a line. -/
theorem waitEffect : Obligations.WaitEffect := by
  intro s
  refine congrArg Host.Outcome.next ?_
  by_cases htime : s.params.tickCyc ≤ s.regs.tcnt + 1
  · rw [if_pos htime, if_pos htime]
    exact commit_of_no_rise (rises_self _) (rises_self _)
  · rw [if_neg htime, if_neg htime]
    exact commit_of_no_rise (rises_self _) (rises_self _)

/-! ### Progress (R153, R162, R176) -/

/-- Settles O48: the checks pass, and the operation `phase` selects completes. -/
theorem invariantStatesNeverStop : Obligations.InvariantStatesNeverStop :=
  fun _ => step_completes

/-! ### The tick counter and the work of a tick (R141, R142) -/

/-- The last cycle of a tick: that of an overrun frame or that of the wait (R146, R147). -/
def Regs.endsTick (p : Params) (r : Regs) : Prop :=
  (r.phase = Phase.ltLo ∧ r.hcnt + 1 = p.halfCyc ∧ p.tickCyc ≤ r.tcnt + 1) ∨
    (r.phase = Phase.wait ∧ p.tickCyc ≤ r.tcnt + 1)

section
variable {p : Params} {r r' : Regs}

theorem ne_of_inFrame (hphase : r.inFrame) : r.phase ≠ Phase.adv ∧ r.phase ≠ Phase.wait := by
  obtain hp | hp | hp | hp := hphase
  all_goals
    rw [hp]
    decide

theorem not_endsTick_of_phase (hltLo : r.phase ≠ Phase.ltLo) (hwait : r.phase ≠ Phase.wait) : ¬ r.endsTick p :=
  not_or.mpr ⟨fun h => hltLo h.1, fun h => hwait h.1⟩

theorem not_endsTick_of_inTime (htime : r.tcnt + 1 < p.tickCyc) : ¬ r.endsTick p :=
  not_or.mpr ⟨fun ⟨_, _, hover⟩ => absurd htime (not_lt.mpr hover), fun ⟨_, hover⟩ => absurd htime (not_lt.mpr hover)⟩

theorem not_endsTick_of_countHalf (hphase : r.inFrame) (hmore : r.hcnt + 1 < p.halfCyc) : ¬ r.endsTick p := by
  rintro (⟨-, hlast, -⟩ | ⟨hwait, -⟩)
  · exact absurd hlast hmore.ne
  · exact (ne_of_inFrame hphase).2 hwait

/-- A move ends the tick and clears the counter, or stays in the tick and counts the cycle (R72, R141). -/
theorem RegsMove.ends_or_counts (h : RegsMove p r r') :
    (r.endsTick p ∧ r'.phase = Phase.adv ∧ r'.tcnt = 0) ∨
      (¬ r.endsTick p ∧ r'.phase ≠ Phase.adv ∧ r'.tcnt = r.tcnt + 1) := by
  cases h with
  | endOverrun hphase hlast htime => exact .inl ⟨.inl ⟨hphase, hlast, htime⟩, rfl, rfl⟩
  | waitEnd hphase htime => exact .inl ⟨.inr ⟨hphase, htime⟩, rfl, rfl⟩
  | countHalf hphase hmore => exact .inr ⟨not_endsTick_of_countHalf hphase hmore, (ne_of_inFrame hphase).1, rfl⟩
  | waitOn hphase htime => exact .inr ⟨not_endsTick_of_inTime htime, ne_of_eq_of_ne hphase (by decide), rfl⟩
  | endInTime hphase hlast htime => exact .inr ⟨not_endsTick_of_inTime htime, by dsimp only; decide, rfl⟩
  | advance hphase | raiseShiftClock hphase | nextBit hphase | raiseLatch hphase | lowerLatch hphase =>
    refine .inr ⟨not_endsTick_of_phase ?_ ?_, by dsimp only [startFrame_phase]; decide, rfl⟩
    all_goals exact ne_of_eq_of_ne hphase (by decide)

/-- The last cycle of a frame is cycle `18H` of its tick (R127, R142). -/
theorem lastFrameCycle_iff_tcnt (hi : r.Inv p) :
    r.phase = Phase.ltLo ∧ r.hcnt + 1 = p.halfCyc ↔ r.tcnt = 18 * p.halfCyc := by
  constructor
  · rintro ⟨hp, hlast⟩
    obtain ⟨-, -, -, -, -, htick, -⟩ := (regsInv_ltLo_iff hp).mp hi
    omega
  · intro hj
    have hslots : 2 * p.halfCyc * (7 - r.bitidx.toNat) ≤ 2 * p.halfCyc * 7 := Nat.mul_le_mul_left _ (Nat.sub_le _ _)
    obtain ⟨-, -, ⟨hh, -⟩, -, -, ⟨hadv, hshLo, hshHi, hltHi, hltLo, hwait⟩, hres, -⟩ := hi
    obtain hp | hp | hp | hp | hp | hp := phase_of_not_reserved hres
    · exact absurd (hadv hp) (by omega)
    · obtain ⟨hwork, -⟩ := hwait hp
      rw [Params.work] at hwork
      omega
    · exact absurd (hshLo hp) (by omega)
    · exact absurd (hshHi hp) (by omega)
    · exact absurd (hltHi hp) (by omega)
    · have htick := hltLo hp
      exact ⟨hp, by omega⟩

end

/-- Settles O41: each move ends the tick or counts the cycle, and the counter's bound is below its width's. -/
theorem tickCounterCounts : Obligations.TickCounterCounts := by
  intro s t hr h
  refine ⟨?_, ?_, fun hi => ⟨tcnt_le_of_inv (regsInv_of_inv hi), Nat.le_pow_clog Nat.one_lt_two _⟩⟩
  · obtain ⟨-, hadv, htcnt⟩ | ⟨-, hadv, htcnt⟩ := (step_regsMove hr h).1.ends_or_counts
    · exact htcnt.trans (if_pos hadv).symm
    · exact htcnt.trans (if_neg hadv).symm
  · obtain ⟨hend, hadv, -⟩ | ⟨hend, hadv, -⟩ := (step_regsMove hr h).1.ends_or_counts
    · exact iff_of_true hadv hend
    · exact iff_of_false hadv hend

/-- Settles O52: the last cycle of a frame is cycle `18H` of its tick. -/
theorem workPerTickIsConstant : Obligations.WorkPerTickIsConstant := by
  intro s hi hphase hlast
  have htcnt := (lastFrameCycle_iff_tcnt (regsInv_of_inv hi)).mp ⟨hphase, hlast⟩
  refine ⟨htcnt, ?_⟩
  rw [htcnt, Params.work, Nat.add_comm]

/-! ### The interval between `ADV` cycles (R145) -/

/-- Inside a tick the tick counter counts the cycles of the run. -/
theorem tcnt_of_run {j : Nat} {s t : State} (hi : s.Inv) (hj : s.regs.tcnt + j < s.params.interval) (hq : s.quietFor j)
    (h : core.run j s = .next t) : t.regs.tcnt = s.regs.tcnt + j := by
  induction j generalizing s with
  | zero =>
    cases h
    rfl
  | succ j ih =>
    obtain ⟨s', hs, h'⟩ := run_succ_next (M := core) h
    obtain ⟨hparams, hrst, -⟩ := buildNeverChanges s s' hs
    obtain ⟨hr, hq'⟩ := quietFor_succ hq hrst
    have htcnt : s'.regs.tcnt = s.regs.tcnt + 1 := (step_regsMove hr hs).1.tcnt_succ (regsInv_of_inv hi) (by omega)
    rw [ih (stepKeepsInvariants s s' hi hs) (by rw [htcnt, hparams]; omega) hq' h', htcnt]
    omega

/-- No cycle of a tick but its first is an `ADV` cycle. -/
theorem run_in_tick_phase_ne_adv {j : Nat} {s : State} (hi : s.Inv) (hadv : s.regs.phase = Phase.adv) (hpos : 0 < j)
    (hj : j < s.params.interval) (hq : s.quietFor j) :
    ∃ t, core.run j s = .next t ∧ t.regs.phase ≠ Phase.adv := by
  obtain ⟨-, -, -, -, hstart, -⟩ := (regsInv_adv_iff hadv).mp (regsInv_of_inv hi)
  obtain ⟨t, ht, hi'⟩ := run_keeps_inv j hi
  have htcnt := tcnt_of_run hi (by omega) hq ht
  exact ⟨t, ht, phase_ne_adv_of_tcnt (regsInv_of_inv hi') (by omega)⟩

/-- Settles O56: one tick is `INTERVAL` cycles with one `ADV` cycle, and the ticks from reset follow each other. -/
theorem tickIntervalIsExact : Obligations.TickIntervalIsExact := by
  constructor
  · intro s hi hadv hq
    refine ⟨fun j hpos hj => run_in_tick_phase_ne_adv hi hadv hpos hj (quietFor_mono hj.le hq), ?_⟩
    obtain ⟨t, ht, hphase, -⟩ := run_tick hi hadv hq
    exact ⟨t, ht, hphase⟩
  · intro p x l k hl hq
    obtain ⟨hn, hn', -⟩ := (legal_iff p).mp hl
    have hrow : (Regs.reset.pos, Regs.reset.dir) = chaserAt p.n 0 := (asc_row_iff hn').mpr ⟨by omega, rfl⟩
    obtain ⟨t, ht, hphase, -⟩ :=
      ticksFollowSequenceTable (State.boot p x l) 0 k (boot_inv hl x l) rfl (by rw [boot_params]; omega) hrow hq
    exact ⟨t, ht, hphase⟩

/-! ### The overrun flag along a run (R148) -/

/-- Where the invariants hold the flag is set in cycle `18H` of a tick that is no longer than `WORK`, and nowhere else. -/
theorem step_ovr_iff {s t : State} (hi : s.Inv) (hr : s.rstNow = false) (h : step s = .next t) :
    t.regs.ovr = true ↔
      s.regs.ovr = true ∨ (s.regs.tcnt + 1 = s.params.work ∧ s.params.tickCyc ≤ s.params.work) := by
  rw [(step_regsMove hr h).1.ovr_iff, ← and_assoc, lastFrameCycle_iff_tcnt (regsInv_of_inv hi), Params.work]
  refine or_congr_right ?_
  omega

/-- From any cycle of a tick on, the flag is set by the first end of a frame, if the build overruns. -/
theorem run_ovr_iff {c : Nat} {s t : State} (hi : s.Inv) (hq : s.quietFor c) (h : core.run c s = .next t) :
    t.regs.ovr = true ↔
      s.regs.ovr = true ∨ (s.params.tickCyc ≤ s.params.work ∧ s.params.work ≤ s.regs.tcnt + c) := by
  have hbound : s.regs.tcnt < max s.params.tickCyc s.params.work := tcnt_lt_interval (regsInv_of_inv hi)
  induction c generalizing s with
  | zero =>
    cases h
    refine (or_iff_left ?_).symm
    omega
  | succ c ih =>
    obtain ⟨s', hs, h'⟩ := run_succ_next (M := core) h
    obtain ⟨hparams, hrst, -⟩ := buildNeverChanges s s' hs
    obtain ⟨hr, hq'⟩ := quietFor_succ hq hrst
    have hi' : s'.Inv := stepKeepsInvariants s s' hi hs
    have htcnt : s.regs.tcnt + 1 < max s.params.tickCyc s.params.work → s'.regs.tcnt = s.regs.tcnt + 1 :=
      (step_regsMove hr hs).1.tcnt_succ (regsInv_of_inv hi)
    have hlater := ih hi' hq' h' (tcnt_lt_interval (regsInv_of_inv hi'))
    rw [hparams, step_ovr_iff hi hr hs, or_assoc] at hlater
    refine hlater.trans (or_congr_right ?_)
    omega

/-- Settles O59: the run starts in cycle 0 of a tick with the flag 0. -/
theorem overrunDependsOnlyOnBuild : Obligations.OverrunDependsOnlyOnBuild := by
  intro p x l c hl hq
  obtain ⟨t, ht, -⟩ := run_keeps_inv c (boot_inv hl x l)
  refine ⟨t, ht, Bool.eq_iff_iff.mpr ?_⟩
  rw [run_ovr_iff (boot_inv hl x l) hq ht, decide_eq_true_iff]
  simp [Params.work]

/-! ### The overrun flag is not read (R150) -/

/-- The registers with `ovr` replaced. -/
def Regs.withOvr (r : Regs) (b : Bool) : Regs := { r with ovr := b }

/-- The state with `ovr` replaced. -/
def State.withOvr (s : State) (b : Bool) : State := { s with regs := s.regs.withOvr b }

section
variable {p : Params} {r : Regs} (b : Bool)

theorem halfPeriod_withOvr {last last' : Regs} (h : last'.withOvr false = last.withOvr false) :
    (halfPeriod p (r.withOvr b) last').withOvr false = (halfPeriod p r last).withOvr false := by
  by_cases hmore : r.hcnt + 1 < p.halfCyc
  · rw [halfPeriod_more hmore, halfPeriod_more (r := r.withOvr b) hmore]
    rfl
  · rwa [halfPeriod_last (not_lt.mp hmore), halfPeriod_last (r := r.withOvr b) (not_lt.mp hmore)]

theorem endOfShiftPulse_withOvr : endOfShiftPulse (r.withOvr b) = (endOfShiftPulse r).withOvr b := by
  obtain hbit | hbit := Nat.eq_zero_or_pos r.bitidx.toNat
  · rw [endOfShiftPulse_lastBit hbit, endOfShiftPulse_lastBit (r := r.withOvr b) hbit]
    rfl
  · rw [endOfShiftPulse_nextBit hbit, endOfShiftPulse_nextBit (r := r.withOvr b) hbit]
    rfl

theorem endOfFrame_withOvr : (endOfFrame p (r.withOvr b)).withOvr false = (endOfFrame p r).withOvr false := by
  by_cases htime : p.tickCyc ≤ r.tcnt + 1
  · rw [endOfFrame_overrun htime, endOfFrame_overrun (r := r.withOvr b) htime]
    rfl
  · rw [endOfFrame_inTime (not_le.mp htime), endOfFrame_inTime (r := r.withOvr b) (not_le.mp htime)]
    rfl

end

section
variable {i : Instr} {s t : State} (b : Bool)

/-- The receiver does not see `ovr` either. -/
theorem commit_withOvr {r r' : Regs} (h : r'.withOvr false = r.withOvr false) :
    ((s.withOvr b).commit r').withOvr false = (s.commit r).withOvr false :=
  congrArg s.commit h

theorem runAdvanceCase_withOvr (h : runAdvanceCase i s = .next t) :
    ∃ t', runAdvanceCase i (s.withOvr b) = .next t' ∧ t'.withOvr false = t.withOvr false := by
  cases i with
  | adv | shLo | shHi | ltHi | ltLo | wait => cases h
  | advIntUp | advIntDn | advUbRev | advUbBack | advLbFwd | advLbRev =>
    obtain ⟨hpos, hkey, rfl⟩ := advanceAs_next h
    exact ⟨_, advanceAs_selected (s := s.withOvr b) hpos hkey, commit_withOvr b rfl⟩

/-- With another `ovr` an operation that completes does so too, and writes the same but for `ovr`. -/
theorem exec_withOvr (h : exec i s = .next t) :
    ∃ t', exec i (s.withOvr b) = .next t' ∧ t'.withOvr false = t.withOvr false := by
  cases i with
  | adv =>
    obtain ⟨j, hd, hj⟩ := execAdv_next h
    obtain ⟨t', ht', heq⟩ := runAdvanceCase_withOvr b hj
    refine ⟨t', ?_, heq⟩
    change execAdv _ = _
    rw [execAdv, show decodeAdvKey (advKey (s.withOvr b).params (s.withOvr b).regs) = .ok j from hd]
    exact ht'
  | shLo | ltHi =>
    cases h
    exact ⟨_, rfl, commit_withOvr b (halfPeriod_withOvr b rfl)⟩
  | shHi =>
    cases h
    refine ⟨_, rfl, commit_withOvr b (halfPeriod_withOvr b ?_)⟩
    change Regs.withOvr { endOfShiftPulse (s.regs.withOvr b) with tcnt := s.regs.tcnt + 1 } false = _
    rw [endOfShiftPulse_withOvr]
    rfl
  | ltLo =>
    cases h
    exact ⟨_, rfl, commit_withOvr b
      (halfPeriod_withOvr b (congrArg (fun r : Regs => { r with hcnt := 0 }) (endOfFrame_withOvr b)))⟩
  | wait =>
    cases h
    refine ⟨_, rfl, commit_withOvr b ?_⟩
    change Regs.withOvr (if s.params.tickCyc ≤ s.regs.tcnt + 1 then _ else _) false = _
    split_ifs
    all_goals rfl
  | advIntUp | advIntDn | advUbRev | advUbBack | advLbFwd | advLbRev =>
    rw [exec_eq_runAdvanceCase rfl] at h ⊢
    exact runAdvanceCase_withOvr b h

end

/-- Settles O39: no check and no operation reads the flag, and a reset clears it. -/
theorem overrunFlagAffectsNothingElse : Obligations.OverrunFlagAffectsNothingElse := by
  intro s t b h
  obtain ⟨hl, ⟨hr, rfl⟩ | ⟨hr, hf, hpos, hh, i, hd, hi⟩⟩ := step_next h
  · exact ⟨_, step_of_reset (s := s.withOvr b) hl hr, rfl⟩
  · obtain ⟨t', ht', heq⟩ := exec_withOvr b hi
    have hc : faultCheck (s.withOvr b) = none := faultCheck_none.mpr ⟨hf, hpos, hh⟩
    exact ⟨t', (step_of_decoded (s := s.withOvr b) hl hr hc hd).trans ht', heq⟩

end Sys2Proof.Machine
end

section
/-! PROOFS. Exceptions (60_exceptions.md): what the fault state does until it is reset. -/

namespace Sys2Proof.Machine

/-! ### The fault state (R162) -/

/-- The reason a fault state holds comes before every other check. -/
theorem faultCheck_of_faulted {s : State} {f : Fault} (hf : s.faulted = some f) : faultCheck s = some f := by
  simp [faultCheck, hf]

/-- Settles O9: the reason held is the first check that fails, and a fault enters the fault state, which writes no register. -/
theorem faultStateKeepsItsReason : Obligations.FaultStateKeepsItsReason := by
  intro s f hl hr
  have hstep : step (s.enterFault f) = .fault f :=
    step_of_faultCheck hl hr (faultCheck_of_faulted (enterFault_faulted s f))
  exact ⟨hstep, nextCycle_of_fault hstep, enterFault_regs s f⟩

end Sys2Proof.Machine
end

section
/-! PROOFS. Reset and hazards (70_reset_and_hazards.md): what a reset writes, from a fault state too, and where the clock lines
rise. -/

namespace Sys2Proof.Machine

/-! ### Where the clock lines rise (R190) -/

/-- The shift clock rises only as the low half of a shift pulse ends (R120). -/
theorem RegsMove.phases_of_sclk_rise {p : Params} {r r' : Regs} (h : RegsMove p r r')
    (hrise : r.sclk = false ∧ r'.sclk = true) : r.phase = Phase.shLo ∧ r'.phase = Phase.shHi := by
  cases h with
  | raiseShiftClock hphase => exact ⟨hphase, rfl⟩
  | advance | nextBit | raiseLatch => cases hrise.2
  | countHalf | lowerLatch | endInTime | endOverrun | waitOn | waitEnd => cases hrise.1.symm.trans hrise.2

/-- The latch clock rises only as the last shift pulse of a frame ends (R123). -/
theorem RegsMove.phases_of_lclk_rise {p : Params} {r r' : Regs} (h : RegsMove p r r')
    (hrise : r.lclk = false ∧ r'.lclk = true) : r.phase = Phase.shHi ∧ r'.phase = Phase.ltHi := by
  cases h with
  | raiseLatch hphase => exact ⟨hphase, rfl⟩
  | advance | lowerLatch => cases hrise.2
  | countHalf | raiseShiftClock | nextBit | endInTime | endOverrun | waitOn | waitEnd =>
    cases hrise.1.symm.trans hrise.2

/-- Settles O43: a reset raises no line, and the moves that raise one leave different phases. No invariant is needed: the two edges
are those of two moves in every state. -/
theorem edgesOnlyInsideFrames : Obligations.EdgesOnlyInsideFrames := by
  intro s t _ h
  cases hr : s.rstNow with
  | true => simp [State.pins, step_reset_regs hr h]
  | false =>
    have hmove : RegsMove s.params s.regs t.regs := (step_regsMove hr h).1
    refine ⟨hmove.phases_of_sclk_rise, hmove.phases_of_lclk_rise, fun ⟨hshift, hlatch⟩ => ?_⟩
    have hphase := (hmove.phases_of_sclk_rise hshift).1.symm.trans (hmove.phases_of_lclk_rise hlatch).1
    exact absurd hphase (by decide)

/-! ### What a reset writes (R180, R187) -/

/-- Settles O10: reset comes before the check of a held fault, and raises no line the receiver would hear. -/
theorem resetLeavesFaultState : Obligations.ResetLeavesFaultState :=
  fun s _ hl _ hr => ⟨s.applyReset, step_of_reset hl hr, rfl, rfl, rfl, applyReset_rx s, rfl⟩

/-- The reset registers pass the checks of the step and select `ADV` (R36, R180). -/
theorem step_of_reset_regs {s : State} (hl : s.params.legal = true) (hr : s.rstNow = false) (hf : s.faulted = none)
    (hregs : s.regs = Regs.reset) : step s = exec .adv s := by
  have hi : s.regs.Inv s.params := hregs ▸ reset_inv hl
  obtain ⟨hpos, -, ⟨hhcnt, -⟩, -⟩ := hi
  exact step_of_decoded hl hr (faultCheck_none.mpr ⟨hf, hpos, hhcnt⟩) (by rw [hregs]; rfl)

/-- Settles O12: `Regs.reset` is R180's table, and it is a state of `ADV` inside the invariants. -/
theorem resetTakesEveryRegister : Obligations.ResetTakesEveryRegister :=
  fun s hl => ⟨fun hr => ⟨s.applyReset, step_of_reset hl hr, rfl, rfl, rfl, rfl⟩, step_of_reset_regs hl⟩

end Sys2Proof.Machine
end

section
/-! PROOFS. Advance cases asked for outside their operands (40_sequencer.md section 2). -/

namespace Sys2Proof.Machine

/-- Settles O24: the six cases are `advanceAs` at their own codes, and it refuses a position out of range or another key. -/
theorem caseOutsideItsOperandsRefused : Obligations.CaseOutsideItsOperandsRefused :=
  fun _ _ hi hout => exec_case_refused hi hout

end Sys2Proof.Machine
end
